-- ==== Sys2Proof/Word.lean ====
section
/-! DEFINITION. The bit-vector widths the spec names (10_state.md R11, R19 to R25; 20_memory.md R40).
Every value is unsigned (00_scope.md R7); bit 0 is the least significant bit (R6). -/

namespace Sys2Proof

/-- One entry of `BUF`: 8 bits (20_memory.md R40). -/
abbrev Byte := BitVec 8

/-- The 16-bit ports and registers: `len`, `buf_waddr`, `buf_raddr`, `N`, `PAYLOAD_OFF` (R11, R15, R25). -/
abbrev Half := BitVec 16

/-- The selector word `SEL = H[1] ++ H[3]` (30_encoding.md R71). -/
abbrev SelWord := BitVec 16

/-- The command word `CMD = start ++ buf_we` (30_encoding.md R72). -/
abbrev CmdWord := BitVec 2

/-- The width of `NEURON_ID` and of `DOMAIN` (10_state.md R23, R24). -/
abbrev Word48 := BitVec 48

end Sys2Proof
end

