-- ==== Sys2Proof/Syntax.lean ====
section
/-! DEFINITION. The instructions: one constructor per row of spec/opcode_table.json, with the operands
the table lists for it (30_encoding.md R71 and R72). -/

namespace Sys2Proof

/-- The six fields of the selector word (30_encoding.md R71), the operands of every selector row. -/
structure SelFields where
  /-- `SEL[15:14]`. -/
  version : BitVec 2
  /-- `SEL[13:12]`. -/
  pduFormat : BitVec 2
  /-- `SEL[11:10]`. -/
  addressFormat : BitVec 2
  /-- `SEL[9:8]`. -/
  domainLengthCode : BitVec 2
  /-- `SEL[7]`, the mode flag. -/
  modeFlag : Bool
  /-- `SEL[6:0]`. -/
  srcNode : BitVec 7
deriving DecidableEq, Repr

/-- The operand ports of a host command (30_encoding.md R72). -/
structure CmdPorts where
  len : Half
  bufWaddr : Half
  bufWdata : Byte
  bufRaddr : Half
deriving DecidableEq, Repr

/-- The rows of spec/opcode_table.json. The first thirteen are what a datagram selects, one of each
group (R71); the last three are the host's commands (R72). -/
inductive Instr where
  /-- AF0_SUBNET, 41_lon_header.md R132. -/
  | af0Subnet (f : SelFields)
  /-- AF1_GROUP, R133. -/
  | af1Group (f : SelFields)
  /-- AF2_SUBNET_NODE, R134. -/
  | af2SubnetNode (f : SelFields)
  /-- AF2_SUBNET_NODE_GROUP, R135. -/
  | af2SubnetNodeGroup (f : SelFields)
  /-- AF3_NEURON_ID, R136. -/
  | af3NeuronId (f : SelFields)
  /-- DOM0, R139. -/
  | dom0 (f : SelFields)
  /-- DOM1, R139. -/
  | dom1 (f : SelFields)
  /-- DOM3, R139. -/
  | dom3 (f : SelFields)
  /-- DOM6, R139. -/
  | dom6 (f : SelFields)
  /-- PDU_TPDU, R125. -/
  | pduTpdu (f : SelFields)
  /-- PDU_SPDU, R125. -/
  | pduSpdu (f : SelFields)
  /-- PDU_AUTHPDU, R125. -/
  | pduAuthpdu (f : SelFields)
  /-- PDU_APDU, R125. -/
  | pduApdu (f : SelFields)
  /-- DECODE, 42_host_control.md R170: `CMD[0]` is free, so `buf_we` is an operand (its write is dropped, R173). -/
  | decode (bufWe : Bool) (len : Half)
  /-- BUF_WRITE, R172. -/
  | bufWrite (waddr : Half) (wdata : Byte)
  /-- BUF_READ, R174: the read port, active in every cycle. -/
  | bufRead (raddr : Half)
deriving DecidableEq, Repr

/-- The four groups of the opcode table: three groups of selector rows (R71) and the host commands (R72). -/
inductive Group where
  | address | domain | pdu | command
deriving DecidableEq, Repr

/-- The group of a row. -/
def Instr.group : Instr → Group
  | .af0Subnet _ | .af1Group _ | .af2SubnetNode _ | .af2SubnetNodeGroup _ | .af3NeuronId _ => .address
  | .dom0 _ | .dom1 _ | .dom3 _ | .dom6 _ => .domain
  | .pduTpdu _ | .pduSpdu _ | .pduAuthpdu _ | .pduApdu _ => .pdu
  | .decode _ _ | .bufWrite _ _ | .bufRead _ => .command

/-- What an instruction is written as: a selector word in the datagram, or a command word with its ports. -/
inductive Encoded where
  | selector (sel : SelWord)
  | command (cmd : CmdWord) (ports : CmdPorts)
deriving DecidableEq, Repr

/-- The five destination layouts (30_encoding.md R66), the source's tagged address variant (10_state.md R22). -/
inductive Variant where
  | subnet | group | subnetNode | subnetNodeGroup | neuronId
deriving DecidableEq, Repr

/-- The decode-time error kinds (60_exceptions.md R200). `unknownFormat` is kept for its reserved code 3;
no decode ends in it (R203). -/
inductive DecodeError where
  | truncatedEnvelope | truncatedHeader | unknownFormat
deriving DecidableEq, Repr

end Sys2Proof
end

