-- ==== Sys2Proof/WellFormed.lean ====
section
/-! DEFINITION. Well-formed instructions: the selector fields a row fixes hold the row's value
(the mask and match of 30_encoding.md R71). A host command has no ill-formed operand: every port
value has a fixed effect (60_exceptions.md R210). -/

namespace Sys2Proof

/-- The check of one instruction against the fixed bits of its row. -/
def Instr.wf : Instr → Bool
  | .af0Subnet f => f.addressFormat == 0#2
  | .af1Group f => f.addressFormat == 1#2
  | .af2SubnetNode f => f.addressFormat == 2#2 && f.modeFlag
  | .af2SubnetNodeGroup f => f.addressFormat == 2#2 && !f.modeFlag
  | .af3NeuronId f => f.addressFormat == 3#2
  | .dom0 f => f.domainLengthCode == 0#2
  | .dom1 f => f.domainLengthCode == 1#2
  | .dom3 f => f.domainLengthCode == 2#2
  | .dom6 f => f.domainLengthCode == 3#2
  | .pduTpdu f => f.pduFormat == 0#2
  | .pduSpdu f => f.pduFormat == 1#2
  | .pduAuthpdu f => f.pduFormat == 2#2
  | .pduApdu f => f.pduFormat == 3#2
  | .decode _ _ => true
  | .bufWrite _ _ => true
  | .bufRead _ => true

end Sys2Proof
end

