-- ==== Sys2Proof/Decode.lean ====
section
/-! DEFINITION. The decoder (selector words, command words, whole datagrams) and, after it, the encoder,
written from 30_encoding.md R62 to R72. No selector and no command word is illegal (R71, R75); a
datagram too short to hold its selector is rejected by the name of its error (R110, R143). -/

namespace Sys2Proof

/-- The fields of a selector word (R71). -/
def unpackSel (sel : SelWord) : SelFields where
  version := sel.extractLsb' 14 2
  pduFormat := sel.extractLsb' 12 2
  addressFormat := sel.extractLsb' 10 2
  domainLengthCode := sel.extractLsb' 8 2
  modeFlag := sel.getLsbD 7
  srcNode := sel.extractLsb' 0 7

/-- The three rows a datagram selects, one of each group (R71). -/
structure SelRows where
  address : Instr
  domain : Instr
  pdu : Instr
deriving DecidableEq, Repr

/-- The address layout row (R66, R71): the mode flag selects only within address-format 2. -/
def addressRow (f : SelFields) : Instr :=
  if f.addressFormat = 0#2 then .af0Subnet f
  else if f.addressFormat = 1#2 then .af1Group f
  else if f.addressFormat = 2#2 then
    if f.modeFlag then .af2SubnetNode f else .af2SubnetNodeGroup f
  else .af3NeuronId f

/-- The domain length row (R68, R71). -/
def domainRow (f : SelFields) : Instr :=
  if f.domainLengthCode = 0#2 then .dom0 f
  else if f.domainLengthCode = 1#2 then .dom1 f
  else if f.domainLengthCode = 2#2 then .dom3 f
  else .dom6 f

/-- The pdu format row (R65, R71). -/
def pduRow (f : SelFields) : Instr :=
  if f.pduFormat = 0#2 then .pduTpdu f
  else if f.pduFormat = 1#2 then .pduSpdu f
  else if f.pduFormat = 2#2 then .pduAuthpdu f
  else .pduApdu f

/-- The rows a selector word selects (R71): total, no selector is illegal. -/
def decodeSel (sel : SelWord) : SelRows where
  address := addressRow (unpackSel sel)
  domain := domainRow (unpackSel sel)
  pdu := pduRow (unpackSel sel)

/-- The rows of one cycle's command word (R72): `BUF_READ` answers in every cycle; `start` makes the
command a `DECODE` whatever `buf_we` is; `buf_we` alone makes it a `BUF_WRITE`; `00` issues no other. -/
def decodeCmd (cmd : CmdWord) (p : CmdPorts) : List Instr :=
  .bufRead p.bufRaddr ::
    (if cmd.getLsbD 1 then [.decode (cmd.getLsbD 0) p.len]
     else if cmd.getLsbD 0 then [.bufWrite p.bufWaddr p.bufWdata]
     else [])

/-- Every row of the opcode table that an encoding matches. -/
def decodeRows : Encoded → List Instr
  | .selector sel => [(decodeSel sel).address, (decodeSel sel).domain, (decodeSel sel).pdu]
  | .command cmd p => decodeCmd cmd p

/-- The rows a whole datagram selects: `H[1]` and `H[3]` stand at indices 21 and 23 (R71, 41_lon_header.md R120).
Fewer than 20 bytes is `TruncatedEnvelope` (R110), fewer than 24 `TruncatedHeader` (R143). -/
def decodeDatagram (d : List Byte) : Except DecodeError SelRows :=
  if d.length < 20 then .error .truncatedEnvelope
  else if d.length < 24 then .error .truncatedHeader
  else .ok (decodeSel (d.getD 21 0#8 ++ d.getD 23 0#8))

/-! ### The encoder -/

/-- The selector word of six fields (R71). -/
def packSel (f : SelFields) : SelWord :=
  f.version ++ f.pduFormat ++ f.addressFormat ++ f.domainLengthCode ++ BitVec.ofBool f.modeFlag ++ f.srcNode

/-- The words of an instruction. The operand ports a command does not use are zero. -/
def encode : Instr → Encoded
  | .af0Subnet f | .af1Group f | .af2SubnetNode f | .af2SubnetNodeGroup f | .af3NeuronId f
  | .dom0 f | .dom1 f | .dom3 f | .dom6 f
  | .pduTpdu f | .pduSpdu f | .pduAuthpdu f | .pduApdu f => .selector (packSel f)
  | .decode we len => .command (1#1 ++ BitVec.ofBool we) ⟨len, 0#16, 0#8, 0#16⟩
  | .bufWrite a v => .command 0b01#2 ⟨0#16, a, v, 0#16⟩
  | .bufRead a => .command 0b00#2 ⟨0#16, 0#16, 0#8, a⟩

/-! ### The opcode table's own numbering -/

/-- The mask and match of a selector row, as 30_encoding.md R71 lists them; `none` for a host command. -/
def selPattern : Instr → Option (SelWord × SelWord)
  | .af0Subnet _ => some (0x0C00#16, 0x0000#16)
  | .af1Group _ => some (0x0C00#16, 0x0400#16)
  | .af2SubnetNode _ => some (0x0C80#16, 0x0880#16)
  | .af2SubnetNodeGroup _ => some (0x0C80#16, 0x0800#16)
  | .af3NeuronId _ => some (0x0C00#16, 0x0C00#16)
  | .dom0 _ => some (0x0300#16, 0x0000#16)
  | .dom1 _ => some (0x0300#16, 0x0100#16)
  | .dom3 _ => some (0x0300#16, 0x0200#16)
  | .dom6 _ => some (0x0300#16, 0x0300#16)
  | .pduTpdu _ => some (0x3000#16, 0x0000#16)
  | .pduSpdu _ => some (0x3000#16, 0x1000#16)
  | .pduAuthpdu _ => some (0x3000#16, 0x2000#16)
  | .pduApdu _ => some (0x3000#16, 0x3000#16)
  | .decode _ _ | .bufWrite _ _ | .bufRead _ => none

/-- The mask and match of a host command, as 30_encoding.md R72 lists them; `none` for a selector row. -/
def cmdPattern : Instr → Option (CmdWord × CmdWord)
  | .decode _ _ => some (0b10#2, 0b10#2)
  | .bufWrite _ _ => some (0b11#2, 0b01#2)
  | .bufRead _ => some (0b00#2, 0b00#2)
  | .af0Subnet _ | .af1Group _ | .af2SubnetNode _ | .af2SubnetNodeGroup _ | .af3NeuronId _
  | .dom0 _ | .dom1 _ | .dom3 _ | .dom6 _
  | .pduTpdu _ | .pduSpdu _ | .pduAuthpdu _ | .pduApdu _ => none

/-- The longest datagram prefix the decoder reads (30_encoding.md R70), all zero but for the two
selector bytes. -/
def datagramOfSel (sel : SelWord) : List Byte :=
  ((List.replicate 37 0#8).set 21 (sel.extractLsb' 8 8)).set 23 (sel.extractLsb' 0 8)

/-- One row to stand for a selector word, where only one can be named: the first row, in the table's order,
whose group's code is not 0, and the address layout row where all three codes are 0
(log entry 9, DESIGN CHOICE; the machine runs all three rows). -/
def oneRow (r : SelRows) (f : SelFields) : Instr :=
  if f.addressFormat ≠ 0#2 then r.address
  else if f.domainLengthCode ≠ 0#2 then r.domain
  else if f.pduFormat ≠ 0#2 then r.pdu
  else r.address

/-- The instruction the decoder reads from `nbits` bits numbered as spec/opcode_table.json numbers them:
a command word with zero ports in 8 bits, a selector word inside a datagram of zeros in 16. -/
def decodeTableWord (nbits w : Nat) : Option Instr :=
  if nbits ≤ 8 then
    if w < 4 then (decodeCmd (BitVec.ofNat 2 w) ⟨0#16, 0#16, 0#8, 0#16⟩).getLast? else none
  else if nbits ≤ 16 ∧ w < 65536 then
    match decodeDatagram (datagramOfSel (BitVec.ofNat 16 w)) with
    | .ok r => some (oneRow r (unpackSel (BitVec.ofNat 16 w)))
    | .error _ => none
  else none

end Sys2Proof
end

