-- ==== Sys2Proof/Config.lean ====
section
/-! DEFINITION. What one implementation of the block fixes (00_scope.md R5) and the values the spec
leaves free (20_memory.md R53, 93_implementation_defined.md I3 and I7). -/

namespace Sys2Proof

/-- The parameters of 00_scope.md R5. They are fixed for one instance and no port changes them
(10_state.md R30); `step` takes them with the state (log entry 2, DESIGN CHOICE). -/
structure Params where
  /-- `MAX_LEN`: the size of `BUF` in bytes. -/
  maxLen : Nat
  /-- `DECODE_LATENCY`: the cycles an accepted decode spends in `BUSY`. -/
  decodeLatency : Nat
  /-- `AF3_SOURCE_COMPAT`: `false` is 0 (corrected domain offset 11), `true` is 1 (literal offset 5). -/
  af3SourceCompat : Bool
deriving DecidableEq, Repr

/-- The legal values of R5: `MAX_LEN` from 37 to 65535, `DECODE_LATENCY` at least 1. -/
abbrev Params.legal (p : Params) : Prop :=
  37 ≤ p.maxLen ∧ p.maxLen ≤ 65535 ∧ 1 ≤ p.decodeLatency

/-- The byte at an index of `BUF` that no write has reached since power-up: an arbitrary value,
one per index (20_memory.md R53; free value, log entry 4). -/
opaque Config.powerUpByte : Nat → Byte

/-- One less than the `DECODE_LATENCY` of the machine `State.reset` describes: the parameter is `OPEN`
(00_scope.md R5, 92_eei_decisions.md D5; free value, log entry 3). -/
opaque Config.decodeLatencyLessOne : Nat

/-- The parameters of the machine after reset: R5's defaults for `MAX_LEN` and `AF3_SOURCE_COMPAT`,
any integer at least 1 for `DECODE_LATENCY`. -/
def Config.params : Params where
  maxLen := 4096
  decodeLatency := Config.decodeLatencyLessOne + 1
  af3SourceCompat := false

end Sys2Proof
end

