-- ==== Sys2Proof/Machine/State.lean ====
section
/-! DEFINITION. The state of the block (10_state.md R12 to R29, 20_memory.md R40), the outcomes of a step,
and the state after reset. Everything is plain data. -/

namespace Sys2Proof.Machine

/-- No step of the block stops the machine with a fault: 42_host_control.md R181 gives every input combination
exactly one next state, and host misuse has fixed effects (60_exceptions.md R210). Nobody raises it. -/
inductive Fault where
deriving DecidableEq, Repr

/-- Why the model could refuse an instruction. -/
inductive Refusal where
  /-- An instruction without a meaning yet, raised by an arm of `exec`; safe. No arm raises it now. -/
  | notModelled (mnemonic : String)
deriving DecidableEq, Repr

/-- The buffer `BUF`: the bytes the host has written since power-up, by index. An index that is not listed has
never been written; what reading it gives is `bufByte` of Machine/Ops.lean (log entry 4). -/
abbrev Memory := List Host.Cell

/-- The canonical form: the indices strictly rise. Memories that hold the same written bytes are equal data. -/
def Memory.wf : Memory → Bool
  | [] => true
  | [_] => true
  | c :: d :: m => decide (c.1 < d.1) && Memory.wf (d :: m)

/-- The values the host drives on the input ports in one cycle (10_state.md R11; `clk` is the step itself). -/
structure Ports where
  rst : Bool
  start : Bool
  len : Half
  bufWe : Bool
  bufWaddr : Half
  bufWdata : Byte
  bufRaddr : Half
deriving DecidableEq, Repr

/-- Ports with no strobe set and every operand 0: what a cycle reads when State lists no more inputs (log entry 1). -/
def Ports.idle : Ports where
  rst := false
  start := false
  len := 0#16
  bufWe := false
  bufWaddr := 0#16
  bufWdata := 0#8
  bufRaddr := 0#16

/-- The result registers (10_state.md R19 to R25), read-only to the host (R26). -/
structure Results where
  envLength : BitVec 16
  envVersion : BitVec 8
  envType : BitVec 8
  envExthdr : BitVec 8
  envFlags : BitVec 8
  envVendor : BitVec 16
  envSession : BitVec 32
  envSequence : BitVec 32
  envTimestamp : BitVec 32
  hdrPriority : Bool
  hdrAltpath : Bool
  hdrBacklog : BitVec 6
  hdrVersion : BitVec 2
  hdrPdufmt : BitVec 2
  hdrAddrfmt : BitVec 2
  hdrDomlenCode : BitVec 2
  srcSubnet : BitVec 8
  srcNode : BitVec 7
  srcMode : Bool
  addrVariant : BitVec 3
  dstSubnet : BitVec 8
  dstNode : BitVec 7
  dstGroup : BitVec 8
  group : BitVec 8
  groupMember : BitVec 8
  neuronId : Word48
  domainLen : BitVec 3
  domainOff : BitVec 5
  domain : Word48
  payloadOff : BitVec 16
  payloadLen : BitVec 16
deriving DecidableEq, Repr

/-- Every result register 0 (10_state.md R29; 42_host_control.md R170; 60_exceptions.md R206). -/
def Results.zero : Results where
  envLength := 0
  envVersion := 0
  envType := 0
  envExthdr := 0
  envFlags := 0
  envVendor := 0
  envSession := 0
  envSequence := 0
  envTimestamp := 0
  hdrPriority := false
  hdrAltpath := false
  hdrBacklog := 0
  hdrVersion := 0
  hdrPdufmt := 0
  hdrAddrfmt := 0
  hdrDomlenCode := 0
  srcSubnet := 0
  srcNode := 0
  srcMode := false
  addrVariant := 0
  dstSubnet := 0
  dstNode := 0
  dstGroup := 0
  group := 0
  groupMember := 0
  neuronId := 0
  domainLen := 0
  domainOff := 0
  domain := 0
  payloadOff := 0
  payloadLen := 0

/-- The block's state. `params`, `inputs` and `bufRdata` are the model's own fields; the others are the spec's. -/
structure State where
  /-- The instance's parameters (00_scope.md R5): constant, no step changes them (log entry 2). -/
  params : Params
  /-- The input ports in this cycle (the head) and in the coming ones (log entry 1). -/
  inputs : List Ports
  /-- The value on port `buf_rdata` in the cycle that ended at the last edge (R49; log entry 6). -/
  bufRdata : Byte
  /-- `BUSY` (10_state.md R13). -/
  busy : Bool
  /-- `CNT` (R14), a counter of `cntWidth` bits (log entry 7). -/
  cnt : Nat
  /-- `N` (R15). -/
  n : Half
  /-- `VALID` (R16). -/
  valid : Bool
  /-- `DONE` (R17). -/
  done : Bool
  /-- `ERR` (R18). -/
  err : BitVec 2
  /-- The result registers (R19 to R25). -/
  res : Results
  /-- `BUF` (R28, 20_memory.md R40). -/
  buf : Memory
deriving DecidableEq, Repr

/-- The machine right after a reset edge that follows power-up (10_state.md R29; 70_reset_and_hazards.md R231):
every register 0, and `BUF` as power-up left it. -/
def State.reset : State where
  params := Config.params
  inputs := []
  bufRdata := 0
  busy := false
  cnt := 0
  n := 0
  valid := false
  done := false
  err := 0
  res := Results.zero
  buf := []

end Sys2Proof.Machine
end

