-- ==== Sys2Proof/Machine/Flags.lean ====
section
/-! DEFINITION. The status registers `BUSY`, `CNT`, `VALID`, `DONE` and `ERR` (10_state.md R13 to R18). The block has no
condition codes (R27); these are all the flags it computes. -/

namespace Sys2Proof.Machine

/-- The code an error kind has in `ERR` (30_encoding.md R73). -/
def errCode : DecodeError → BitVec 2
  | .truncatedEnvelope => 1#2
  | .truncatedHeader => 2#2
  | .unknownFormat => 3#2

/-- The width of `CNT`, `ceil(log2(DECODE_LATENCY + 1))` for a latency of at least 1 (10_state.md R14). -/
def cntWidth (decodeLatency : Nat) : Nat := Nat.log2 decodeLatency + 1

/-- `CNT - 1` in a register of `w` bits (42_host_control.md R176). At 0, which only a machine that was never reset can
hold while `BUSY`, it wraps (log entry 7, DEDUCED). -/
def cntLessOne (w cnt : Nat) : Nat := if cnt = 0 then 2 ^ w - 1 else cnt - 1

/-- `DONE <- 0` (42_host_control.md R177). -/
def clearDone (s : State) : State := { s with done := false }

/-- The status registers at an accepted `DECODE` (42_host_control.md R170). -/
def statusAccepted (s : State) : State :=
  { s with busy := true, cnt := s.params.decodeLatency, valid := false, done := false, err := 0#2 }

/-- The status registers at a completion without an error (42_host_control.md R175). -/
def statusCompleted (s : State) : State :=
  { s with busy := false, cnt := 0, valid := true, done := true, err := 0#2 }

/-- The status registers at a completion with an error (42_host_control.md R175, 60_exceptions.md R206). -/
def statusFailed (e : DecodeError) (s : State) : State :=
  { s with busy := false, cnt := 0, valid := false, done := true, err := errCode e }

/-- One cycle of the countdown (42_host_control.md R176). -/
def countDown (s : State) : State :=
  { s with cnt := cntLessOne (cntWidth s.params.decodeLatency) s.cnt }

end Sys2Proof.Machine
end

