-- ==== Sys2Proof/Machine/Ops.lean ====
section
/-! DEFINITION. The shared operations: the buffer and its two ports (20_memory.md), the big-endian read (00_scope.md R8),
accepting a decode, entering a decode error, finishing a decode, and reset. -/

namespace Sys2Proof.Machine

/-! ### The buffer -/

/-- The byte written at an index, if one has been (20_memory.md R53). -/
def memLookup : Memory → Nat → Option Byte
  | [], _ => none
  | (b, v) :: m, a => if a = b then some v else memLookup m a

/-- Write one byte, keeping the indices strictly rising. -/
def memStore : Memory → Nat → Byte → Memory
  | [], a, v => [(a, v)]
  | (b, w) :: m, a, v =>
    if a < b then (a, v) :: (b, w) :: m
    else if a = b then (a, v) :: m
    else (b, w) :: memStore m a v

/-- `BUF[a]` (00_scope.md R8). A byte never written since power-up holds an arbitrary value (20_memory.md R53). -/
def bufByte (s : State) (a : Nat) : Byte := (memLookup s.buf a).getD (Config.powerUpByte a)

/-- `MemRead(a, n)`: `BUF[a] ++ … ++ BUF[a+n-1]`, most significant byte first (00_scope.md R8, 20_memory.md R42). -/
def memRead (s : State) (a : Nat) : (n : Nat) → BitVec (8 * n)
  | 0 => 0#0
  | n + 1 => (memRead s a n ++ bufByte s (a + n) : BitVec (8 * n + 8))

/-- `MemWrite(a, 1, v)` (00_scope.md R8): only `BUF_WRITE` performs it. -/
def memWrite (a : Nat) (v : Byte) (s : State) : State := { s with buf := memStore s.buf a v }

/-- The host read port: `buf_rdata` for an index below `MAX_LEN`, `0x00` at or above it (20_memory.md R49). -/
def readPort (s : State) (raddr : Half) : Byte :=
  if raddr.toNat < s.params.maxLen then bufByte s raddr.toNat else 0x00#8

/-- Sample `buf_rdata` (log entry 6). -/
def sampleRead (raddr : Half) (s : State) : State := { s with bufRdata := readPort s raddr }

/-- The host write port: nothing is written at or above `MAX_LEN` (20_memory.md R50), nor while `BUSY`
(42_host_control.md R173). -/
def writePort (waddr : Half) (wdata : Byte) (s : State) : State :=
  if s.busy then s
  else if waddr.toNat < s.params.maxLen then memWrite waddr.toNat wdata s
  else s

/-! ### The host's ports -/

/-- The input ports in this cycle (10_state.md R11); idle when State lists none (log entry 1). -/
def portsNow (s : State) : Ports := s.inputs.headD Ports.idle

/-- The next cycle's input ports come to the head. -/
def popInputs (s : State) : State := { s with inputs := s.inputs.tail }

/-- `CMD = start ++ buf_we` (30_encoding.md R72). -/
def cmdWord (p : Ports) : CmdWord := BitVec.ofBool p.start ++ BitVec.ofBool p.bufWe

/-- The operand ports of the command. -/
def cmdPorts (p : Ports) : CmdPorts := ⟨p.len, p.bufWaddr, p.bufWdata, p.bufRaddr⟩

/-- The output ports (10_state.md R11, R26). `N` and `CNT` are at none of them (R14, R15). -/
structure Outputs where
  busy : Bool
  done : Bool
  valid : Bool
  err : BitVec 2
  res : Results
  bufRdata : Byte
deriving DecidableEq, Repr

/-- What the output ports show in a cycle in which the host drives `raddr` on `buf_raddr`: the registers, and the
combinational read port (10_state.md R10, R26). -/
def outputs (s : State) (raddr : Half) : Outputs where
  busy := s.busy
  done := s.done
  valid := s.valid
  err := s.err
  res := s.res
  bufRdata := readPort s raddr

/-! ### One decode -/

/-- `min(len, MAX_LEN)` (42_host_control.md R180). -/
def effectiveLen (p : Params) (len : Half) : Half := BitVec.ofNat 16 (min len.toNat p.maxLen)

/-- Accept a `DECODE` (42_host_control.md R170): latch the effective length, start the countdown, clear the status and
every result register. It is also what ends an error state (60_exceptions.md R208): the block has no return instruction. -/
def acceptDecode (len : Half) (s : State) : State :=
  { statusAccepted s with n := effectiveLen s.params len, res := Results.zero }

/-- TAKING A DECODE ERROR, the block's one exception entry (60_exceptions.md R206): `ERR <- code`, `VALID <- 0`, `BUSY <- 0`,
`DONE <- 1`, every result register 0. `BUF` and `N` are kept (R201). -/
def takeError (e : DecodeError) (s : State) : State :=
  { statusFailed e s with res := Results.zero }

/-- The reset state (70_reset_and_hazards.md R231): every register 0, `BUF` kept. -/
def applyReset (s : State) : State :=
  { s with busy := false, cnt := 0, n := 0#16, valid := false, done := false, err := 0#2, res := Results.zero }

/-! ### Sequencing -/

/-- Go on with `g` from the next state of an outcome; a stop stays what it is. -/
def andThen (o : Host.Outcome State Fault Refusal) (g : State → Host.Outcome State Fault Refusal) :
    Host.Outcome State Fault Refusal :=
  match o with
  | .next s => g s
  | .fault r => .fault r
  | .refused r => .refused r

end Sys2Proof.Machine
end

