-- ==== Sys2Proof/Machine/Operands.lean ====
section
/-! DEFINITION. The operand forms (30_encoding.md R74): the bit fields of a header byte, the layout of the destination address
and of the domain (R66 to R70), and the length check (40_envelope.md R110, 41_lon_header.md R142 and R143). -/

namespace Sys2Proof.Machine

/-- `H[i]`, the byte at header-relative offset `i`: `BUF[20 + i]` (41_lon_header.md R120). -/
def hdrByte (s : State) (i : Nat) : Byte := bufByte s (20 + i)

/-- `SEL = H[1] ++ H[3]` (30_encoding.md R71). -/
def selWord (s : State) : SelWord := hdrByte s 1 ++ hdrByte s 3

/-- `v[6:0]` of a byte, the form of `SRC_NODE` and `DST_NODE` (mask 0x7F). -/
def nodeField (b : Byte) : BitVec 7 := b.extractLsb' 0 7

/-! ### Layouts -/

/-- The address variant that the address format and the mode flag select (41_lon_header.md R131). -/
def variantOf (f : SelFields) : Variant :=
  if f.addressFormat = 0#2 then .subnet
  else if f.addressFormat = 1#2 then .group
  else if f.addressFormat = 2#2 then if f.modeFlag then .subnetNode else .subnetNodeGroup
  else .neuronId

/-- The code of a variant in `ADDR_VARIANT` (10_state.md R22). -/
def variantCode : Variant → BitVec 3
  | .subnet => 0#3
  | .group => 1#3
  | .subnetNode => 2#3
  | .subnetNodeGroup => 3#3
  | .neuronId => 4#3

/-- `addr_len`, the address bytes after `H[3]` (30_encoding.md R67). -/
def addrLen : Variant → Nat
  | .subnet => 1
  | .group => 1
  | .subnetNode => 2
  | .subnetNodeGroup => 4
  | .neuronId => 7

/-- `addr_end = 4 + addr_len` (30_encoding.md R70). -/
def addrEnd (v : Variant) : Nat := 4 + addrLen v

/-- `domain_offset`, header-relative (30_encoding.md R69): the end of the address, but 5 for `NEURON_ID` when
`AF3_SOURCE_COMPAT = 1`. -/
def domainOffset (p : Params) (v : Variant) : Nat :=
  match v with
  | .neuronId => if p.af3SourceCompat then 5 else 11
  | v => addrEnd v

/-- `dlen`, the bytes of the domain field (30_encoding.md R68). -/
def domainBytes (code : BitVec 2) : Nat :=
  if code = 0#2 then 0 else if code = 1#2 then 1 else if code = 2#2 then 3 else 6

/-- `need`, the index after the last header byte any step reads (41_lon_header.md R142). -/
def headerNeed (p : Params) (v : Variant) (code : BitVec 2) : Nat :=
  max (addrEnd v) (domainOffset p v + domainBytes code)

/-! ### The length check -/

/-- Why a decode of `n` bytes with these selector fields fails, if it does: the envelope check first (40_envelope.md R110,
60_exceptions.md R205), then the header check (41_lon_header.md R143). -/
def decodeCheck (p : Params) (n : Nat) (v : Variant) (code : BitVec 2) : Option DecodeError :=
  if n < 20 then some .truncatedEnvelope
  else if n < 24 then some .truncatedHeader
  else if n < 20 + headerNeed p v code then some .truncatedHeader
  else none

/-- Run a row of the header decode: a datagram too short for the layout takes the error instead (R143, R206). -/
def withHeader (v : Variant) (code : BitVec 2) (write : State → State) (s : State) :
    Host.Outcome State Fault Refusal :=
  match decodeCheck s.params s.n.toNat v code with
  | some e => .next (takeError e s)
  | none => .next (write s)

/-! ### The destination address and the domain -/

/-- The registers the address layout writes: `ADDR_VARIANT` (R131), the six destination registers (R132 to R137) and
`DOMAIN_OFF` (R138). -/
structure Destination where
  variant : Variant
  dstSubnet : BitVec 8
  dstNode : BitVec 7
  dstGroup : BitVec 8
  group : BitVec 8
  groupMember : BitVec 8
  neuronId : Word48
deriving DecidableEq, Repr

/-- A variant with every destination register 0: what it does not name stays so (R137). -/
def unpopulated (v : Variant) : Destination := ⟨v, 0#8, 0#7, 0#8, 0#8, 0#8, 0#48⟩

/-- Write the destination registers, the tag and the domain offset of the layout. -/
def writeDestination (d : Destination) (s : State) : State :=
  { s with res := { s.res with
      addrVariant := variantCode d.variant
      dstSubnet := d.dstSubnet
      dstNode := d.dstNode
      dstGroup := d.dstGroup
      group := d.group
      groupMember := d.groupMember
      neuronId := d.neuronId
      domainOff := BitVec.ofNat 5 (domainOffset s.params d.variant) } }

/-- Write `DOMAIN_LEN` and `DOMAIN` for a domain of `k` bytes at `domain_offset` (R139, R140): big-endian, zero-extended to
48 bits. -/
def writeDomain (v : Variant) (k : Nat) (s : State) : State :=
  { s with res := { s.res with
      domainLen := BitVec.ofNat 3 k
      domain := (memRead s (20 + domainOffset s.params v) k).setWidth 48 } }

/-- Write `HDR_PDUFMT` (R125). -/
def writePdufmt (code : BitVec 2) (s : State) : State :=
  { s with res := { s.res with hdrPdufmt := code } }

/-! ### The fields every decode writes -/

/-- The nine envelope registers (40_envelope.md R101 to R109). -/
def writeEnvelope (s : State) : State :=
  { s with res := { s.res with
      envLength := memRead s 0 2
      envVersion := memRead s 2 1
      envType := memRead s 3 1
      envExthdr := memRead s 4 1
      envFlags := memRead s 5 1
      envVendor := memRead s 6 2
      envSession := memRead s 8 4
      envSequence := memRead s 12 4
      envTimestamp := memRead s 16 4 } }

/-- The flags byte (41_lon_header.md R121 to R123), the fields of the format byte no row writes (R124, R126, R127) and the
source address (R128 to R130). -/
def writeHeader (f : SelFields) (s : State) : State :=
  { s with res := { s.res with
      hdrPriority := (hdrByte s 0).getLsbD 7
      hdrAltpath := (hdrByte s 0).getLsbD 6
      hdrBacklog := (hdrByte s 0).extractLsb' 0 6
      hdrVersion := f.version
      hdrAddrfmt := f.addressFormat
      hdrDomlenCode := f.domainLengthCode
      srcSubnet := hdrByte s 2
      srcNode := f.srcNode
      srcMode := f.modeFlag } }

/-- The enclosed payload, an offset and a length into `BUF` (41_lon_header.md R141). -/
def writePayload (f : SelFields) (s : State) : State :=
  let off := BitVec.ofNat 16 (20 + domainOffset s.params (variantOf f) + domainBytes f.domainLengthCode)
  { s with res := { s.res with payloadOff := off, payloadLen := s.n - off } }

end Sys2Proof.Machine
end

