-- ==== Sys2Proof/Machine/Address.lean ====
section
/-! DEFINITION. The address layout rows (41_lon_header.md R132 to R136). Each writes the destination registers of its layout, 0 to
those it does not name (R137), the tag (R131) and `DOMAIN_OFF` (R138), or takes the error of R143. -/

namespace Sys2Proof.Machine

/-- AF0_SUBNET (R132): `DST_SUBNET <- H[4]`. The mode flag is ignored. -/
def execAf0Subnet (f : SelFields) (s : State) : Host.Outcome State Fault Refusal :=
  withHeader .subnet f.domainLengthCode
    (writeDestination { unpopulated .subnet with dstSubnet := hdrByte s 4 }) s

/-- AF1_GROUP (R133): `DST_GROUP <- H[4]`. The mode flag is ignored. -/
def execAf1Group (f : SelFields) (s : State) : Host.Outcome State Fault Refusal :=
  withHeader .group f.domainLengthCode
    (writeDestination { unpopulated .group with dstGroup := hdrByte s 4 }) s

/-- AF2_SUBNET_NODE (R134): `DST_SUBNET <- H[4]`, `DST_NODE <- H[5][6:0]`. `H[5][7]` is ignored. -/
def execAf2SubnetNode (f : SelFields) (s : State) : Host.Outcome State Fault Refusal :=
  withHeader .subnetNode f.domainLengthCode
    (writeDestination { unpopulated .subnetNode with
      dstSubnet := hdrByte s 4
      dstNode := nodeField (hdrByte s 5) }) s

/-- AF2_SUBNET_NODE_GROUP (R135): as R134, and `GROUP <- H[6]`, `GROUP_MEMBER <- H[7]`. -/
def execAf2SubnetNodeGroup (f : SelFields) (s : State) : Host.Outcome State Fault Refusal :=
  withHeader .subnetNodeGroup f.domainLengthCode
    (writeDestination { unpopulated .subnetNodeGroup with
      dstSubnet := hdrByte s 4
      dstNode := nodeField (hdrByte s 5)
      group := hdrByte s 6
      groupMember := hdrByte s 7 }) s

/-- AF3_NEURON_ID (R136): `DST_SUBNET <- H[4]`, `NEURON_ID <- MemRead(25, 6)`. -/
def execAf3NeuronId (f : SelFields) (s : State) : Host.Outcome State Fault Refusal :=
  withHeader .neuronId f.domainLengthCode
    (writeDestination { unpopulated .neuronId with
      dstSubnet := hdrByte s 4
      neuronId := memRead s 25 6 }) s

end Sys2Proof.Machine
end

