-- ==== Sys2Proof/Machine/Command.lean ====
section
/-! DEFINITION. The host's commands (42_host_control.md R170 to R174). Reset overrides all of them and is the cycle's business
(Machine/Cycle.lean, 70_reset_and_hazards.md R230). -/

namespace Sys2Proof.Machine

/-- DECODE: accepted when `BUSY = 0` (R170), ignored when `BUSY = 1` (R171). The `buf_we` of the same cycle writes nothing
(R173). -/
def execDecode (_bufWe : Bool) (len : Half) (s : State) : Host.Outcome State Fault Refusal :=
  .next (if s.busy then s else acceptDecode len s)

/-- BUF_WRITE: `BUF[buf_waddr] <- buf_wdata` (R172), dropped while `BUSY = 1` (R173), nothing at or above `MAX_LEN` (R50). -/
def execBufWrite (waddr : Half) (wdata : Byte) (s : State) : Host.Outcome State Fault Refusal :=
  .next (writePort waddr wdata s)

/-- BUF_READ: `buf_rdata` answers in every cycle and no register of the block changes (R174, R49). -/
def execBufRead (raddr : Half) (s : State) : Host.Outcome State Fault Refusal :=
  .next (sampleRead raddr s)

end Sys2Proof.Machine
end

