-- ==== Sys2Proof/Machine/Domain.lean ====
section
/-! DEFINITION. The domain length rows (41_lon_header.md R139, R140): 0, 1, 3 or 6 bytes from `domain_offset`, which the address
format and the mode flag of the same selector word give (R138). -/

namespace Sys2Proof.Machine

/-- DOM0 (R139): no byte is read and the domain is 0. -/
def execDom0 (f : SelFields) (s : State) : Host.Outcome State Fault Refusal :=
  withHeader (variantOf f) 0#2 (writeDomain (variantOf f) 0) s

/-- DOM1 (R139): a domain of one byte. -/
def execDom1 (f : SelFields) (s : State) : Host.Outcome State Fault Refusal :=
  withHeader (variantOf f) 1#2 (writeDomain (variantOf f) 1) s

/-- DOM3 (R139): code 2 is a domain of three bytes. -/
def execDom3 (f : SelFields) (s : State) : Host.Outcome State Fault Refusal :=
  withHeader (variantOf f) 2#2 (writeDomain (variantOf f) 3) s

/-- DOM6 (R139): code 3 is a domain of six bytes. -/
def execDom6 (f : SelFields) (s : State) : Host.Outcome State Fault Refusal :=
  withHeader (variantOf f) 3#2 (writeDomain (variantOf f) 6) s

end Sys2Proof.Machine
end

