-- ==== Sys2Proof/Machine/Pdu.lean ====
section
/-! DEFINITION. The pdu format rows (41_lon_header.md R125; codes of 30_encoding.md R65): the code is reported and changes nothing
else of the decode. -/

namespace Sys2Proof.Machine

/-- PDU_TPDU: code 0. -/
def execPduTpdu (f : SelFields) (s : State) : Host.Outcome State Fault Refusal :=
  withHeader (variantOf f) f.domainLengthCode (writePdufmt 0#2) s

/-- PDU_SPDU: code 1. -/
def execPduSpdu (f : SelFields) (s : State) : Host.Outcome State Fault Refusal :=
  withHeader (variantOf f) f.domainLengthCode (writePdufmt 1#2) s

/-- PDU_AUTHPDU: code 2. -/
def execPduAuthpdu (f : SelFields) (s : State) : Host.Outcome State Fault Refusal :=
  withHeader (variantOf f) f.domainLengthCode (writePdufmt 2#2) s

/-- PDU_APDU: code 3. -/
def execPduApdu (f : SelFields) (s : State) : Host.Outcome State Fault Refusal :=
  withHeader (variantOf f) f.domainLengthCode (writePdufmt 3#2) s

end Sys2Proof.Machine
end

