-- ==== Sys2Proof/Machine/Dispatch.lean ====
section
/-! DEFINITION. The meaning of each instruction, one arm per constructor. -/

namespace Sys2Proof.Machine

def exec (i : Instr) (s : State) : Host.Outcome State Fault Refusal :=
  match i with
  | .af0Subnet f => Sys2Proof.Machine.execAf0Subnet f s
  | .af1Group f => Sys2Proof.Machine.execAf1Group f s
  | .af2SubnetNode f => Sys2Proof.Machine.execAf2SubnetNode f s
  | .af2SubnetNodeGroup f => Sys2Proof.Machine.execAf2SubnetNodeGroup f s
  | .af3NeuronId f => Sys2Proof.Machine.execAf3NeuronId f s
  | .dom0 f => Sys2Proof.Machine.execDom0 f s
  | .dom1 f => Sys2Proof.Machine.execDom1 f s
  | .dom3 f => Sys2Proof.Machine.execDom3 f s
  | .dom6 f => Sys2Proof.Machine.execDom6 f s
  | .pduTpdu f => Sys2Proof.Machine.execPduTpdu f s
  | .pduSpdu f => Sys2Proof.Machine.execPduSpdu f s
  | .pduAuthpdu f => Sys2Proof.Machine.execPduAuthpdu f s
  | .pduApdu f => Sys2Proof.Machine.execPduApdu f s
  | .decode we len => Sys2Proof.Machine.execDecode we len s
  | .bufWrite a v => Sys2Proof.Machine.execBufWrite a v s
  | .bufRead a => Sys2Proof.Machine.execBufRead a s

end Sys2Proof.Machine
end

