-- ==== Sys2Proof/Machine/Cycle.lean ====
section
/-! DEFINITION. One clock cycle (42_host_control.md R181): the rows the command word selects, then, while `BUSY`, the countdown or
the completing edge with the rows the datagram selects. -/

namespace Sys2Proof.Machine

/-- Run instructions in order within one edge. -/
def execAll : List Instr → State → Host.Outcome State Fault Refusal
  | [], s => .next s
  | i :: is, s => andThen (exec i s) (execAll is)

/-- The writes of a successful decode: the fields every decode writes, the three rows the selector word selects, and the
status (R175, R146). The rows write disjoint registers from the bytes of `BUF`, so their order is not observable. -/
def decodeWrites (sel : SelWord) (s : State) : Host.Outcome State Fault Refusal :=
  andThen (execAll (decodeRows (.selector sel)) (writePayload (unpackSel sel) (writeHeader (unpackSel sel) (writeEnvelope s))))
    (fun t => .next (statusCompleted t))

/-- The completing edge (R175): `Decode()` of R179 over `BUF[0 .. N-1]`. A failing check takes its error and writes no field
(60_exceptions.md R206). -/
def completeDecode (s : State) : Host.Outcome State Fault Refusal :=
  match decodeCheck s.params s.n.toNat (variantOf (unpackSel (selWord s))) (unpackSel (selWord s)).domainLengthCode with
  | some e => .next (takeError e s)
  | none => decodeWrites (selWord s) s

/-- What a decode in progress does at an edge: complete when `CNT = 1` (R175), else count down (R176). -/
def progress (s : State) : Host.Outcome State Fault Refusal :=
  if s.cnt = 1 then completeDecode s else .next (countDown s)

/-- One rising edge of `clk`, `Step(state, in)` of R181 with these input ports. The read port answers first, from `BUF` as the cycle
found it (20_memory.md R49), also under `rst`. `rst` overrides every command (70_reset_and_hazards.md R230). Otherwise `DONE` falls
(R177), the cycle's command runs (with no effect while `BUSY`), and a decode that was in progress goes on. -/
def cycleWith (p : Ports) (s : State) : Host.Outcome State Fault Refusal :=
  if p.rst then
    andThen (exec (.bufRead p.bufRaddr) (popInputs s)) (fun t => .next (applyReset t))
  else
    andThen (execAll (decodeRows (.command (cmdWord p) (cmdPorts p))) (clearDone (popInputs s)))
      (fun t => if s.busy then progress t else .next t)

/-- One rising edge of `clk` with the ports the host drives now. -/
def cycle (s : State) : Host.Outcome State Fault Refusal := cycleWith (portsNow s) s

/-! ### Placing an instruction where the next cycle runs it -/

/-- The host drives this command word, with every operand port 0, in the next cycle of an idle block. -/
def placeCommand (cmd : CmdWord) (s : State) : State :=
  { s with
    busy := false
    cnt := 0
    inputs := { Ports.idle with start := cmd.getLsbD 1, bufWe := cmd.getLsbD 0 } :: s.inputs.tail }

/-- The bytes of a list as a buffer, from an index on. -/
def memImage : Nat → List Byte → Memory
  | _, [] => []
  | a, v :: d => (a, v) :: memImage (a + 1) d

/-- The buffer holds the longest datagram prefix, all zero but for this selector word, and its decode is at the completing
edge, where the rows run. -/
def placeSelector (sel : SelWord) (s : State) : State :=
  { s with
    busy := true
    cnt := 1
    n := 37#16
    buf := memImage 0 (datagramOfSel sel) ++ s.buf.filter (fun c => decide (37 ≤ c.1))
    inputs := Ports.idle :: s.inputs.tail }

end Sys2Proof.Machine
end

