-- ==== Sys2Proof/Machine/Step.lean ====
section
/-! DEFINITION. One step of the machine is one rising edge of `clk` (42_host_control.md R181). -/

namespace Sys2Proof.Machine

/-- The next-state function of R181: total, every state and input has exactly one next state. -/
def step (s : State) : Host.Outcome State Fault Refusal := cycle s

/-- `s` with one word of the opcode table placed so that the next step runs it: a command word (2 bits, one byte) on the input
ports of an idle block, or a selector word (16 bits) in the datagram whose decode completes (log entry 9). -/
def State.withFetchWord (s : State) (nbits w : Nat) : State :=
  if nbits ≤ 8 then placeCommand (BitVec.ofNat 2 w) s else placeSelector (BitVec.ofNat 16 w) s

end Sys2Proof.Machine
end

