-- ==== Sys2Proof/Safety.lean ====
section
/-! DEFINITION. What a safe state of the block is, and the spec's own whole-decode and whole-cycle functions written as one
piece each, for statements to compare the machine with. -/

namespace Sys2Proof.Safety

open Sys2Proof.Machine

/-! ### The decode as one function -/

/-- The pair `(addr_end, domain_offset)` of an address format and a mode flag, the `case` of 41_lon_header.md R142. -/
def layoutEnds (compat : Bool) (af : BitVec 2) (mode : Bool) : Nat × Nat :=
  if af = 0#2 then (5, 5)
  else if af = 1#2 then (5, 5)
  else if af = 2#2 then (if mode then (6, 6) else (8, 8))
  else (11, if compat then 5 else 11)

/-- `dlen` of 41_lon_header.md R139, as a table. -/
def dlen (code : BitVec 2) : Nat := [0, 1, 3, 6].getD code.toNat 0

/-- `need(af, mode, code)` of 41_lon_header.md R142. -/
def need (compat : Bool) (af : BitVec 2) (mode : Bool) (code : BitVec 2) : Nat :=
  max (layoutEnds compat af mode).1 ((layoutEnds compat af mode).2 + dlen code)

/-- The domain value at `BUF` index `a` (41_lon_header.md R140), each length written out. -/
def domainValue (b : Nat → Byte) (a : Nat) (code : BitVec 2) : Word48 :=
  if code = 0#2 then 0#48
  else if code = 1#2 then 0#40 ++ b a
  else if code = 2#2 then 0#24 ++ b a ++ b (a + 1) ++ b (a + 2)
  else b a ++ b (a + 1) ++ b (a + 2) ++ b (a + 3) ++ b (a + 4) ++ b (a + 5)

/-- `Decode()` of 42_host_control.md R179, with `DecodeEnvelope` (40_envelope.md R100) and `DecodeHeader` (41_lon_header.md R146)
as their pseudocode gives them: a function of `N` and of the bytes of `BUF`. -/
def decodePacket (p : Params) (n : Nat) (b : Nat → Byte) : Except DecodeError Results :=
  let h := fun i => b (20 + i)
  let af := (h 1).extractLsb' 2 2
  let mode := (h 3).getLsbD 7
  let code := (h 1).extractLsb' 0 2
  let doff := (layoutEnds p.af3SourceCompat af mode).2
  let isNode := af == 2#2
  let isGroupMember := af == 2#2 && !mode
  if n < 20 then .error .truncatedEnvelope
  else if n < 24 then .error .truncatedHeader
  else if n < 20 + need p.af3SourceCompat af mode code then .error .truncatedHeader
  else .ok
    { envLength := b 0 ++ b 1
      envVersion := b 2
      envType := b 3
      envExthdr := b 4
      envFlags := b 5
      envVendor := b 6 ++ b 7
      envSession := b 8 ++ b 9 ++ b 10 ++ b 11
      envSequence := b 12 ++ b 13 ++ b 14 ++ b 15
      envTimestamp := b 16 ++ b 17 ++ b 18 ++ b 19
      hdrPriority := (h 0).getLsbD 7
      hdrAltpath := (h 0).getLsbD 6
      hdrBacklog := (h 0).extractLsb' 0 6
      hdrVersion := (h 1).extractLsb' 6 2
      hdrPdufmt := (h 1).extractLsb' 4 2
      hdrAddrfmt := af
      hdrDomlenCode := code
      srcSubnet := h 2
      srcNode := (h 3).extractLsb' 0 7
      srcMode := mode
      addrVariant :=
        if af = 0#2 then 0#3 else if af = 1#2 then 1#3
        else if af = 2#2 then (if mode then 2#3 else 3#3) else 4#3
      dstSubnet := if af = 1#2 then 0#8 else h 4
      dstNode := if isNode then (h 5).extractLsb' 0 7 else 0#7
      dstGroup := if af = 1#2 then h 4 else 0#8
      group := if isGroupMember then h 6 else 0#8
      groupMember := if isGroupMember then h 7 else 0#8
      neuronId := if af = 3#2 then h 5 ++ h 6 ++ h 7 ++ h 8 ++ h 9 ++ h 10 else 0#48
      domainLen := BitVec.ofNat 3 (dlen code)
      domainOff := BitVec.ofNat 5 doff
      domain := domainValue b (20 + doff) code
      payloadOff := BitVec.ofNat 16 (20 + doff + dlen code)
      payloadLen := BitVec.ofNat 16 (n - (20 + doff + dlen code)) }

/-- The header-relative ends of the reads of 41_lon_header.md Steps 1 to 5, in step order: `H[0]` to `H[3]`, the address bytes from
offset 4, the domain bytes from `domain_offset` (41_lon_header.md R144). -/
def readEnds (compat : Bool) (af : BitVec 2) (mode : Bool) (code : BitVec 2) : List Nat :=
  [1, 2, 3, 4]
    ++ (List.range ((layoutEnds compat af mode).1 - 4)).map (fun i => 4 + i + 1)
    ++ (List.range (dlen code)).map (fun i => (layoutEnds compat af mode).2 + i + 1)

/-- The source's check before each indexed read: the first read in the list that ends beyond `n` bytes fails. -/
def readsFit (n : Nat) : List Nat → Bool
  | [] => true
  | e :: es => if n < 20 + e then false else readsFit n es

/-! ### One cycle as one function -/

/-- The edge that accepts a `DECODE` (42_host_control.md R170). -/
abbrev Accepting (s : State) : Prop :=
  (portsNow s).rst = false ∧ s.busy = false ∧ (portsNow s).start = true

/-- The edge that completes a decode (42_host_control.md R175). -/
abbrev Completing (s : State) : Prop :=
  (portsNow s).rst = false ∧ s.busy = true ∧ s.cnt = 1

/-- The length the datagram in `BUF` needs, `20 + need` over its own `H[1]` and `H[3]` (41_lon_header.md R142). -/
def neededLength (s : State) : Nat :=
  20 + need s.params.af3SourceCompat ((bufByte s 21).extractLsb' 2 2) ((bufByte s 23).getLsbD 7) ((bufByte s 21).extractLsb' 0 2)

/-- The registers a decode error writes (60_exceptions.md R206), with its code in `ERR`. -/
def afterError (code : BitVec 2) (s : State) : State :=
  { s with busy := false, cnt := 0, valid := false, done := true, err := code, res := Results.zero }

/-- The model's bookkeeping of a cycle: the input list moves on and the read port is sampled. -/
def cycled (s : State) : State :=
  { s with inputs := s.inputs.tail, bufRdata := readPort s (portsNow s).bufRaddr }

/-- The registers at a completing edge (42_host_control.md R175, 60_exceptions.md R206). -/
def completed (s : State) : State :=
  match decodePacket s.params s.n.toNat (bufByte s) with
  | .ok r => { s with busy := false, cnt := 0, valid := true, done := true, err := 0#2, res := r }
  | .error e => { s with busy := false, cnt := 0, valid := false, done := true, err := errCode e, res := Results.zero }

/-- `Step(state, in)` of 42_host_control.md R181, and the model's own bookkeeping of the input list and the read port. -/
def edge (s : State) (p : Ports) : State :=
  let t : State := { s with
    done := false
    inputs := s.inputs.tail
    bufRdata := if p.bufRaddr.toNat < s.params.maxLen then bufByte s p.bufRaddr.toNat else 0#8 }
  if p.rst then
    { t with busy := false, cnt := 0, n := 0#16, valid := false, err := 0#2, res := Results.zero }
  else if s.busy then
    if s.cnt = 1 then completed t
    else { t with cnt := cntLessOne (cntWidth s.params.decodeLatency) s.cnt }
  else if p.start then
    { t with
      busy := true
      cnt := s.params.decodeLatency
      n := BitVec.ofNat 16 (min p.len.toNat s.params.maxLen)
      valid := false
      err := 0#2
      res := Results.zero }
  else if p.bufWe ∧ p.bufWaddr.toNat < s.params.maxLen then
    { t with buf := memStore s.buf p.bufWaddr.toNat p.bufWdata }
  else t

/-! ### Safe states -/

/-- The shape of a valid packet: the tag, the offsets and the lengths fit the format fields (10_state.md R22 to R25). -/
structure PacketShape (s : State) : Prop where
  /-- `ADDR_VARIANT` is the code of the reported address format and mode flag (30_encoding.md R66). -/
  variant : s.res.addrVariant =
    if s.res.hdrAddrfmt = 0#2 then 0#3 else if s.res.hdrAddrfmt = 1#2 then 1#3
    else if s.res.hdrAddrfmt = 2#2 then (if s.res.srcMode then 2#3 else 3#3) else 4#3
  /-- `DOMAIN_LEN` is the length of the reported code (30_encoding.md R68). -/
  domainLen : s.res.domainLen.toNat = dlen s.res.hdrDomlenCode
  /-- `DOMAIN_OFF` is the offset of the reported layout (30_encoding.md R69). -/
  domainOff : s.res.domainOff.toNat =
    (layoutEnds s.params.af3SourceCompat s.res.hdrAddrfmt s.res.srcMode).2
  /-- The payload starts behind the domain (41_lon_header.md R141). -/
  payloadOff : s.res.payloadOff.toNat = 20 + s.res.domainOff.toNat + s.res.domainLen.toNat
  /-- The payload ends at `N` (41_lon_header.md R141). -/
  payloadEnd : s.res.payloadOff.toNat + s.res.payloadLen.toNat = s.n.toNat

/-- The invariant of a block that has been reset, with legal parameters. -/
structure Inv (s : State) : Prop where
  /-- The parameters are legal (00_scope.md R5). -/
  paramsLegal : s.params.legal
  /-- The buffer is in canonical form. -/
  bufWf : Memory.wf s.buf = true
  /-- Only indices below `MAX_LEN` are written (20_memory.md R50). -/
  bufBounded : ∀ c ∈ s.buf, c.1 < s.params.maxLen
  /-- `N ≤ MAX_LEN` (42_host_control.md R180). -/
  lenBounded : s.n.toNat ≤ s.params.maxLen
  /-- `CNT` is 0 while idle (10_state.md R14). -/
  idleCnt : s.busy = false → s.cnt = 0
  /-- `CNT` counts from `DECODE_LATENCY` down to 1 while a decode is in progress (10_state.md R14). -/
  busyCnt : s.busy = true → 1 ≤ s.cnt ∧ s.cnt ≤ s.params.decodeLatency
  /-- While `BUSY` no outcome shows (70_reset_and_hazards.md R236). -/
  busyClear : s.busy = true → s.valid = false ∧ s.done = false ∧ s.err = 0#2
  /-- While `VALID = 0` every result register is 0 (10_state.md R26). -/
  clearUnlessValid : s.valid = false → s.res = Results.zero
  /-- A valid packet goes with no error (10_state.md R16, R18). -/
  validNoErr : s.valid = true → s.err = 0#2
  /-- `ERR` never reads 3 (60_exceptions.md R203). -/
  errLegal : s.err ≠ 3#2
  /-- `ADDR_VARIANT` is never 5 to 7 (10_state.md R22). -/
  variantLegal : s.res.addrVariant.toNat ≤ 4
  /-- A valid packet has its shape. -/
  packet : s.valid = true → PacketShape s

end Sys2Proof.Safety
end

