-- ==== Sys2Proof/Certificates/Slice0/Obligations.lean ====
section
/-! DEFINITION. The statements for the provers. Each docstring names the rule of spec/ a statement formalises; OBLIGATIONS.json
lists them. -/

open Sys2Proof Sys2Proof.Machine Sys2Proof.Safety

/-! ### Reset -/

/-- 70_reset_and_hazards.md R230: an edge with `rst` takes the reset state whatever else the host drives; every register is 0
and `BUF` is kept (R231, 10_state.md R29). -/
def Obligations.ResetOverridesEverything : Prop :=
  ∀ s : State, (portsNow s).rst = true →
    step s = .next
      { params := s.params, inputs := s.inputs.tail, bufRdata := readPort s (portsNow s).bufRaddr,
        busy := false, cnt := 0, n := 0#16, valid := false, done := false, err := 0#2,
        res := Results.zero, buf := s.buf }

/-- 10_state.md R29 and 00_scope.md R5: the registers, the default parameters, and a legal latency, in `State.reset`. -/
def Obligations.ResetStateRegisters : Prop :=
  State.reset.busy = false ∧ State.reset.cnt = 0 ∧ State.reset.n = 0#16 ∧ State.reset.valid = false ∧
  State.reset.done = false ∧ State.reset.err = 0#2 ∧ State.reset.res = Results.zero ∧
  State.reset.params.maxLen = 4096 ∧ State.reset.params.af3SourceCompat = false ∧
  1 ≤ State.reset.params.decodeLatency

/-- The invariant of Safety.lean holds after reset. -/
def Obligations.InvariantAtReset : Prop := Inv State.reset

/-- The invariant of Safety.lean is kept by every step, from every state that has it and under every input. -/
def Obligations.InvariantKeptByEveryStep : Prop :=
  ∀ s t : State, Inv s → step s = .next t → Inv t

/-! ### Encoding -/

/-- Every well-formed instruction is among the rows its own encoding matches, with every operand as it was. -/
def Obligations.EncodeThenDecodeFindsRow : Prop :=
  ∀ i : Instr, i.wf = true → i ∈ decodeRows (encode i)

/-- Every row read from a selector word is well formed and encodes back to that word: no bit of it is dropped. -/
def Obligations.DecodedRowsEncodeBack : Prop :=
  ∀ (sel : SelWord) (i : Instr), i ∈ decodeRows (.selector sel) → i.wf = true ∧ encode i = .selector sel

/-- 30_encoding.md R71: the selector word is `H[1] ++ H[3]` with its fields in place, and a word selects exactly the rows whose
mask and match it meets, one of each group. -/
def Obligations.SelectorSelectsOneRowPerGroup : Prop :=
  (∀ s : State, selWord s = bufByte s 21 ++ bufByte s 23) ∧
  ∀ sel : SelWord,
    (unpackSel sel).version = sel.extractLsb 15 14 ∧ (unpackSel sel).pduFormat = sel.extractLsb 13 12 ∧
    (unpackSel sel).addressFormat = sel.extractLsb 11 10 ∧ (unpackSel sel).domainLengthCode = sel.extractLsb 9 8 ∧
    (unpackSel sel).modeFlag = sel.getLsbD 7 ∧ (unpackSel sel).srcNode = sel.extractLsb 6 0 ∧
    (decodeRows (.selector sel)).map Instr.group = [.address, .domain, .pdu] ∧
    ∀ i : Instr,
      i ∈ decodeRows (.selector sel) ↔
        ∃ mask pattern, selPattern i = some (mask, pattern) ∧ sel &&& mask = pattern ∧ encode i = .selector sel

/-- 30_encoding.md R72: the rows of the four command words. -/
def Obligations.CommandWordRows : Prop :=
  ∀ p : CmdPorts,
    decodeRows (.command 0b00#2 p) = [.bufRead p.bufRaddr] ∧
    decodeRows (.command 0b01#2 p) = [.bufRead p.bufRaddr, .bufWrite p.bufWaddr p.bufWdata] ∧
    decodeRows (.command 0b10#2 p) = [.bufRead p.bufRaddr, .decode false p.len] ∧
    decodeRows (.command 0b11#2 p) = [.bufRead p.bufRaddr, .decode true p.len]

/-- Selector words of 95_test_vectors.md (V-H1, V-H3, V-H4, V-H5: bytes `H[1]`, `H[3]`) and their rows. -/
def Obligations.VectorSelectorsDecode : Prop :=
  decodeSel 0x3183#16 =
    ⟨.af0Subnet ⟨0, 3, 0, 1, true, 3⟩, .dom1 ⟨0, 3, 0, 1, true, 3⟩, .pduApdu ⟨0, 3, 0, 1, true, 3⟩⟩ ∧
  decodeSel 0x2AFF#16 =
    ⟨.af2SubnetNode ⟨0, 2, 2, 2, true, 127⟩, .dom3 ⟨0, 2, 2, 2, true, 127⟩, .pduAuthpdu ⟨0, 2, 2, 2, true, 127⟩⟩ ∧
  decodeSel 0x5B05#16 =
    ⟨.af2SubnetNodeGroup ⟨1, 1, 2, 3, false, 5⟩, .dom6 ⟨1, 1, 2, 3, false, 5⟩, .pduSpdu ⟨1, 1, 2, 3, false, 5⟩⟩ ∧
  decodeSel 0xEF81#16 =
    ⟨.af3NeuronId ⟨3, 2, 3, 3, true, 1⟩, .dom6 ⟨3, 2, 3, 3, true, 1⟩, .pduAuthpdu ⟨3, 2, 3, 3, true, 1⟩⟩

/-! ### A step runs the decoded instructions -/

/-- In an idle cycle without reset, the step is the run of the command word's rows, after `DONE` falls and the input list moves
on (42_host_control.md R181, 30_encoding.md R72). -/
def Obligations.IdleStepRunsCommand : Prop :=
  ∀ s : State, (portsNow s).rst = false → s.busy = false →
    ((portsNow s).start = true →
      step s = andThen (exec (.bufRead (portsNow s).bufRaddr) (clearDone (popInputs s)))
        (exec (.decode (portsNow s).bufWe (portsNow s).len))) ∧
    ((portsNow s).start = false → (portsNow s).bufWe = true →
      step s = andThen (exec (.bufRead (portsNow s).bufRaddr) (clearDone (popInputs s)))
        (exec (.bufWrite (portsNow s).bufWaddr (portsNow s).bufWdata))) ∧
    ((portsNow s).start = false → (portsNow s).bufWe = false →
      step s = exec (.bufRead (portsNow s).bufRaddr) (clearDone (popInputs s)))

/-- At the completing edge of a datagram that is long enough, the step is the run of the three rows its selector bytes `H[1]` and
`H[3]` decode to, between the fields every decode writes and the completion status (R146, R175). -/
def Obligations.CompletingStepRunsSelectedRows : Prop :=
  ∀ (s : State) (r : SelRows), Completing s → decodeSel (bufByte s 21 ++ bufByte s 23) = r →
    neededLength s ≤ s.n.toNat →
    step s =
      andThen (exec r.address
        (writePayload (unpackSel (selWord s)) (writeHeader (unpackSel (selWord s)) (writeEnvelope (clearDone (cycled s))))))
        (fun t => andThen (exec r.domain t)
          (fun t => andThen (exec r.pdu t) (fun t => .next (statusCompleted t))))

/-- The order in which the three rows of one datagram run is not observable. -/
def Obligations.SelectedRowsCommute : Prop :=
  ∀ (sel : SelWord) (s : State) (rows : List Instr), rows.Perm (decodeRows (.selector sel)) →
    execAll rows s = execAll (decodeRows (.selector sel)) s

/-! ### The whole cycle and the whole decode -/

/-- 42_host_control.md R181: the step is `Step(state, in)`, written as one function with the decode of R179 inside it, for every
state and every input. In a state with `BUSY = 1` and `CNT = 0`, which only a machine that was never reset can hold, R181's
`CNT - 1` does not say what 0 becomes: there the wrap in the width of R14 is the model's own choice (log entry 7, DEDUCED), and
so are the input list and the sampled read port everywhere (log entries 1 and 6). -/
def Obligations.StepIsNextStateFunction : Prop :=
  ∀ s : State, step s = .next (edge s (portsNow s))

/-- 42_host_control.md R170, R175, R176 and R179 with 20_memory.md R51: from any idle state, a `DECODE` accepted now completes `DECODE_LATENCY` cycles
later, whatever the host drives meanwhile short of `rst`, with the outcome of `Decode()` over `BUF[0 .. N-1]` as it stood at
acceptance (any bytes `b` that agree with it below `N` give it); the buffer is unchanged. -/
def Obligations.DecodeCompletesAfterLatency : Prop :=
  ∀ (s : State) (p : Ports) (during rest : List Ports),
    s.inputs = p :: (during ++ rest) → during.length = s.params.decodeLatency → 1 ≤ s.params.decodeLatency →
    s.busy = false → p.rst = false → p.start = true → (∀ q ∈ during, q.rst = false) →
    ∃ t : State, Host.Core.run Sys2Proof.core (s.params.decodeLatency + 1) s = .next t ∧
      t.busy = false ∧ t.cnt = 0 ∧ t.done = true ∧ t.inputs = rest ∧ t.params = s.params ∧ t.buf = s.buf ∧
      t.n.toNat = min p.len.toNat s.params.maxLen ∧
      ∀ b : Nat → Byte, (∀ a, a < min p.len.toNat s.params.maxLen → b a = bufByte s a) →
      match decodePacket s.params (min p.len.toNat s.params.maxLen) b with
      | .ok r => t.valid = true ∧ t.err = 0#2 ∧ t.res = r
      | .error e => t.valid = false ∧ t.err = errCode e ∧ t.res = Results.zero

/-- 42_host_control.md R175 and 70_reset_and_hazards.md R236: in each of the `DECODE_LATENCY` cycles after the acceptance the block
is `BUSY` and shows no outcome; `CNT` counts down. -/
def Obligations.BusyShowsNoOutcome : Prop :=
  ∀ (s : State) (p : Ports) (during rest : List Ports) (k : Nat),
    s.inputs = p :: (during ++ rest) → during.length = s.params.decodeLatency →
    s.busy = false → p.rst = false → p.start = true → (∀ q ∈ during, q.rst = false) →
    1 ≤ k → k ≤ s.params.decodeLatency →
    ∃ t : State, Host.Core.run Sys2Proof.core k s = .next t ∧
      t.busy = true ∧ t.cnt = s.params.decodeLatency + 1 - k ∧ t.valid = false ∧ t.done = false ∧ t.err = 0#2 ∧
      t.res = Results.zero ∧ t.buf = s.buf

/-- 70_reset_and_hazards.md R240: no result of a decode depends on `DECODE_LATENCY`, nor on what the host drives while the block is
busy. -/
def Obligations.OutcomeIndependentOfLatency : Prop :=
  ∀ (s s' : State) (p : Ports) (during during' rest rest' : List Ports),
    s' = { s with params := s'.params, inputs := s'.inputs } →
    s'.params.maxLen = s.params.maxLen → s'.params.af3SourceCompat = s.params.af3SourceCompat →
    s.inputs = p :: (during ++ rest) → s'.inputs = p :: (during' ++ rest') →
    during.length = s.params.decodeLatency → during'.length = s'.params.decodeLatency →
    1 ≤ s.params.decodeLatency → 1 ≤ s'.params.decodeLatency →
    s.busy = false → p.rst = false → p.start = true →
    (∀ q ∈ during, q.rst = false) → (∀ q ∈ during', q.rst = false) →
    ∃ t t' : State,
      Host.Core.run Sys2Proof.core (s.params.decodeLatency + 1) s = .next t ∧
      Host.Core.run Sys2Proof.core (s'.params.decodeLatency + 1) s' = .next t' ∧
      ∀ raddr : Half, outputs t' raddr = { outputs t raddr with bufRdata := readPort t' raddr }

/-! ### Commands -/

/-- 42_host_control.md R170: the edge that accepts a `DECODE`. -/
def Obligations.DecodeAcceptedEdge : Prop :=
  ∀ s : State, Accepting s →
    step s = .next { s with
      n := BitVec.ofNat 16 (min (portsNow s).len.toNat s.params.maxLen)
      busy := true, cnt := s.params.decodeLatency, valid := false, err := 0#2, done := false
      res := Results.zero, inputs := s.inputs.tail, bufRdata := readPort s (portsNow s).bufRaddr }

/-- DECODE as an instruction: accepted when idle (R170), with no effect when busy (R171), for either `buf_we`. -/
def Obligations.DecodeInstruction : Prop :=
  ∀ (we : Bool) (len : Half) (s : State),
    (s.busy = false → exec (.decode we len) s = .next { s with
      n := BitVec.ofNat 16 (min len.toNat s.params.maxLen)
      busy := true, cnt := s.params.decodeLatency, valid := false, err := 0#2, done := false
      res := Results.zero }) ∧
    (s.busy = true → exec (.decode we len) s = .next s)

/-- 42_host_control.md R180: the effective length is exactly `min(len, MAX_LEN)`, for every `len` and every `MAX_LEN`. -/
def Obligations.EffectiveLengthIsMin : Prop :=
  ∀ (p : Params) (len : Half), (effectiveLen p len).toNat = min len.toNat p.maxLen

/-- 42_host_control.md R171: while a decode is in progress nothing the host drives but `rst` (and the index it reads) matters; a
`start` is neither queued nor an error; one held across the completing edge is accepted at the next. -/
def Obligations.CommandsIgnoredWhileBusy : Prop :=
  (∀ (s : State) (p q : Ports) (rest : List Ports), s.busy = true → p.rst = q.rst → p.bufRaddr = q.bufRaddr →
    step { s with inputs := p :: rest } = step { s with inputs := q :: rest }) ∧
  ∀ s : State, Completing s →
    ∃ t : State, step s = .next t ∧ ((portsNow t).rst = false → (portsNow t).start = true → Accepting t)

/-- 42_host_control.md R173: a `buf_we` with `BUSY`, with `start` or with `rst` is as no `buf_we`. -/
def Obligations.DroppedWrites : Prop :=
  ∀ (s : State) (p : Ports) (rest : List Ports), p.bufWe = true → (s.busy = true ∨ p.start = true ∨ p.rst = true) →
    step { s with inputs := p :: rest } = step { s with inputs := { p with bufWe := false } :: rest }

/-- 42_host_control.md R172 and 20_memory.md R50: the edge of a `BUF_WRITE` on an idle block writes its one byte below `MAX_LEN` and
nothing at or above it; nothing else changes but `DONE` (R177) and the model's bookkeeping. -/
def Obligations.BufWriteEdge : Prop :=
  ∀ s : State, (portsNow s).rst = false → s.busy = false → (portsNow s).start = false → (portsNow s).bufWe = true →
    ∃ t : State, step s = .next t ∧
      t = { s with done := false, inputs := s.inputs.tail, bufRdata := readPort s (portsNow s).bufRaddr, buf := t.buf } ∧
      ((portsNow s).bufWaddr.toNat < s.params.maxLen →
        bufByte t (portsNow s).bufWaddr.toNat = (portsNow s).bufWdata ∧
        ∀ a, a ≠ (portsNow s).bufWaddr.toNat → bufByte t a = bufByte s a) ∧
      (s.params.maxLen ≤ (portsNow s).bufWaddr.toNat → t.buf = s.buf)

/-- BUF_WRITE as an instruction: its byte, and every other byte and every register as before; nothing at all while `BUSY` (R173) or
at or above `MAX_LEN` (R50). -/
def Obligations.BufWriteInstruction : Prop :=
  ∀ (waddr : Half) (wdata : Byte) (s : State),
    (s.busy = false → waddr.toNat < s.params.maxLen →
      ∃ t : State, exec (.bufWrite waddr wdata) s = .next t ∧ t = { s with buf := t.buf } ∧
        bufByte t waddr.toNat = wdata ∧ ∀ a, a ≠ waddr.toNat → bufByte t a = bufByte s a) ∧
    ((s.busy = true ∨ s.params.maxLen ≤ waddr.toNat) → exec (.bufWrite waddr wdata) s = .next s)

/-- BUF_READ as an instruction (R174): the byte of `BUF` below `MAX_LEN`, `0x00` at or above it; no register and no byte changes. -/
def Obligations.BufReadInstruction : Prop :=
  ∀ (raddr : Half) (s : State),
    exec (.bufRead raddr) s = .next { s with
      bufRdata := if raddr.toNat < s.params.maxLen then bufByte s raddr.toNat else 0x00#8 }

/-- 20_memory.md R49: in every cycle, `rst` and `BUSY` included, `buf_rdata` is the byte as `BUF` stood at the start of the cycle; a
byte written in the cycle shows from the next one. -/
def Obligations.ReadPortAnswersEveryCycle : Prop :=
  ∀ s : State, ∃ t : State, step s = .next t ∧
    (∀ r : Half, (outputs s r).bufRdata = if r.toNat < s.params.maxLen then bufByte s r.toNat else 0x00#8) ∧
    t.bufRdata = (outputs s (portsNow s).bufRaddr).bufRdata ∧
    ((portsNow s).rst = false → s.busy = false → (portsNow s).start = false → (portsNow s).bufWe = true →
      (portsNow s).bufWaddr.toNat < s.params.maxLen →
      (outputs t (portsNow s).bufWaddr).bufRdata = (portsNow s).bufWdata)

/-! ### Progress, completion and errors -/

/-- 42_host_control.md R176: the countdown changes `CNT` and nothing else (`DONE` falls by R177; the last two fields are the model's
bookkeeping). -/
def Obligations.CountdownEdge : Prop :=
  ∀ s : State, (portsNow s).rst = false → s.busy = true → 1 < s.cnt →
    step s = .next { s with
      cnt := s.cnt - 1, done := false
      inputs := s.inputs.tail, bufRdata := readPort s (portsNow s).bufRaddr }

/-- 42_host_control.md R177: `DONE` is 1 after a completion edge and 0 after every other edge. -/
def Obligations.DoneOnlyAfterCompletion : Prop :=
  ∀ s t : State, step s = .next t → (t.done = true ↔ Completing s)

/-- 42_host_control.md R178: results, `VALID` and `ERR` change only at a completion, an accepted `DECODE` or a reset. -/
def Obligations.OutcomeHeldBetweenDecodes : Prop :=
  ∀ s t : State, step s = .next t → (portsNow s).rst = false → ¬ Accepting s → ¬ Completing s →
    t.res = s.res ∧ t.valid = s.valid ∧ t.err = s.err

/-- 60_exceptions.md R201: `N < 20` at completion. -/
def Obligations.TruncatedEnvelopeEntry : Prop :=
  ∀ s : State, Completing s → s.n.toNat < 20 → step s = .next (afterError 1#2 (cycled s))

/-- 60_exceptions.md R202: `20 ≤ N` and the datagram is shorter than its header needs. -/
def Obligations.TruncatedHeaderEntry : Prop :=
  ∀ s : State, Completing s → 20 ≤ s.n.toNat → (s.n.toNat < 24 ∨ s.n.toNat < neededLength s) →
    step s = .next (afterError 2#2 (cycled s))

/-- 41_lon_header.md R143: a decode succeeds exactly when `N` holds all that the header needs; otherwise the error is the one of
60_exceptions.md R205. -/
def Obligations.SuccessExactlyWhenLongEnough : Prop :=
  ∀ s t : State, Completing s → step s = .next t →
    (t.valid = true ↔ neededLength s ≤ s.n.toNat) ∧
    (t.err = 0#2 ↔ neededLength s ≤ s.n.toNat) ∧
    (t.err = 1#2 ↔ s.n.toNat < 20) ∧
    (t.err = 2#2 ↔ 20 ≤ s.n.toNat ∧ s.n.toNat < neededLength s)

/-- 60_exceptions.md R206: an error entry keeps no field, and `BUF` and `N` are unchanged. -/
def Obligations.ErrorEntryKeepsNoField : Prop :=
  ∀ s t : State, Completing s → step s = .next t → t.valid = false →
    (t.err = 1#2 ∨ t.err = 2#2) ∧ t.busy = false ∧ t.cnt = 0 ∧ t.done = true ∧ t.res = Results.zero ∧
    t.buf = s.buf ∧ t.n = s.n ∧ t.params = s.params

/-- 60_exceptions.md R203 and 10_state.md R22: no step writes the code 3 into `ERR`, nor a code 5 to 7 into `ADDR_VARIANT`, in any
state, one that was never reset included. -/
def Obligations.ReservedCodesNeverWritten : Prop :=
  ∀ s t : State, step s = .next t →
    (t.err = 3#2 → s.err = 3#2) ∧
    (4 < t.res.addrVariant.toNat → t.res.addrVariant = s.res.addrVariant)

/-! ### Address layout rows -/

/-- 41_lon_header.md R132. -/
def Obligations.SubnetLayout : Prop :=
  ∀ (f : SelFields) (s : State),
    (25 + dlen f.domainLengthCode ≤ s.n.toNat →
      exec (.af0Subnet f) s = .next { s with res := { s.res with
        addrVariant := 0#3, domainOff := 5#5, dstSubnet := bufByte s 24, dstNode := 0#7, dstGroup := 0#8, group := 0#8,
        groupMember := 0#8, neuronId := 0#48 } }) ∧
    (20 ≤ s.n.toNat → s.n.toNat < 25 + dlen f.domainLengthCode →
      exec (.af0Subnet f) s = .next (afterError 2#2 s))

/-- 41_lon_header.md R133. -/
def Obligations.GroupLayout : Prop :=
  ∀ (f : SelFields) (s : State),
    (25 + dlen f.domainLengthCode ≤ s.n.toNat →
      exec (.af1Group f) s = .next { s with res := { s.res with
        addrVariant := 1#3, domainOff := 5#5, dstSubnet := 0#8, dstNode := 0#7, dstGroup := bufByte s 24, group := 0#8,
        groupMember := 0#8, neuronId := 0#48 } }) ∧
    (20 ≤ s.n.toNat → s.n.toNat < 25 + dlen f.domainLengthCode →
      exec (.af1Group f) s = .next (afterError 2#2 s))

/-- 41_lon_header.md R134. -/
def Obligations.SubnetNodeLayout : Prop :=
  ∀ (f : SelFields) (s : State),
    (26 + dlen f.domainLengthCode ≤ s.n.toNat →
      exec (.af2SubnetNode f) s = .next { s with res := { s.res with
        addrVariant := 2#3, domainOff := 6#5, dstSubnet := bufByte s 24, dstNode := (bufByte s 25).extractLsb 6 0,
        dstGroup := 0#8, group := 0#8, groupMember := 0#8, neuronId := 0#48 } }) ∧
    (20 ≤ s.n.toNat → s.n.toNat < 26 + dlen f.domainLengthCode →
      exec (.af2SubnetNode f) s = .next (afterError 2#2 s))

/-- 41_lon_header.md R135. -/
def Obligations.SubnetNodeGroupLayout : Prop :=
  ∀ (f : SelFields) (s : State),
    (28 + dlen f.domainLengthCode ≤ s.n.toNat →
      exec (.af2SubnetNodeGroup f) s = .next { s with res := { s.res with
        addrVariant := 3#3, domainOff := 8#5, dstSubnet := bufByte s 24, dstNode := (bufByte s 25).extractLsb 6 0,
        dstGroup := 0#8, group := bufByte s 26, groupMember := bufByte s 27, neuronId := 0#48 } }) ∧
    (20 ≤ s.n.toNat → s.n.toNat < 28 + dlen f.domainLengthCode →
      exec (.af2SubnetNodeGroup f) s = .next (afterError 2#2 s))

/-- 41_lon_header.md R136, for both settings of `AF3_SOURCE_COMPAT`. -/
def Obligations.NeuronIdLayout : Prop :=
  ∀ (f : SelFields) (s : State),
    ((if s.params.af3SourceCompat then 31 else 31 + dlen f.domainLengthCode) ≤ s.n.toNat →
      exec (.af3NeuronId f) s = .next { s with res := { s.res with
        addrVariant := 4#3, domainOff := if s.params.af3SourceCompat then 5#5 else 11#5, dstSubnet := bufByte s 24,
        dstNode := 0#7, dstGroup := 0#8, group := 0#8, groupMember := 0#8,
        neuronId := bufByte s 25 ++ bufByte s 26 ++ bufByte s 27 ++ bufByte s 28 ++ bufByte s 29 ++ bufByte s 30 } }) ∧
    (20 ≤ s.n.toNat → s.n.toNat < (if s.params.af3SourceCompat then 31 else 31 + dlen f.domainLengthCode) →
      exec (.af3NeuronId f) s = .next (afterError 2#2 s))

/-! ### Domain and pdu rows -/

/-- 41_lon_header.md R139 and R140, the four rows: the domain starts at the offset of the layout that the same selector word gives,
and its value is its bytes, big-endian, zero-extended to 48 bits. -/
def Obligations.DomainRows : Prop :=
  ∀ (f : SelFields) (s : State) (doff : Nat),
    doff = (layoutEnds s.params.af3SourceCompat f.addressFormat f.modeFlag).2 →
    (20 + need s.params.af3SourceCompat f.addressFormat f.modeFlag 0#2 ≤ s.n.toNat →
      exec (.dom0 f) s = .next { s with res := { s.res with domainLen := 0#3, domain := 0#48 } }) ∧
    (20 + need s.params.af3SourceCompat f.addressFormat f.modeFlag 1#2 ≤ s.n.toNat →
      exec (.dom1 f) s = .next { s with res := { s.res with
        domainLen := 1#3, domain := 0#40 ++ bufByte s (20 + doff) } }) ∧
    (20 + need s.params.af3SourceCompat f.addressFormat f.modeFlag 2#2 ≤ s.n.toNat →
      exec (.dom3 f) s = .next { s with res := { s.res with
        domainLen := 3#3
        domain := 0#24 ++ bufByte s (20 + doff) ++ bufByte s (21 + doff) ++ bufByte s (22 + doff) } }) ∧
    (20 + need s.params.af3SourceCompat f.addressFormat f.modeFlag 3#2 ≤ s.n.toNat →
      exec (.dom6 f) s = .next { s with res := { s.res with
        domainLen := 6#3
        domain := bufByte s (20 + doff) ++ bufByte s (21 + doff) ++ bufByte s (22 + doff) ++ bufByte s (23 + doff) ++
          bufByte s (24 + doff) ++ bufByte s (25 + doff) } })

/-- 41_lon_header.md R125, the four rows: `HDR_PDUFMT` takes the code and nothing else changes. -/
def Obligations.PduRows : Prop :=
  ∀ (f : SelFields) (s : State),
    20 + need s.params.af3SourceCompat f.addressFormat f.modeFlag f.domainLengthCode ≤ s.n.toNat →
    exec (.pduTpdu f) s = .next { s with res := { s.res with hdrPdufmt := 0#2 } } ∧
    exec (.pduSpdu f) s = .next { s with res := { s.res with hdrPdufmt := 1#2 } } ∧
    exec (.pduAuthpdu f) s = .next { s with res := { s.res with hdrPdufmt := 2#2 } } ∧
    exec (.pduApdu f) s = .next { s with res := { s.res with hdrPdufmt := 3#2 } }

/-- 41_lon_header.md R143 and 60_exceptions.md R205: every row a selector word selects takes the same error on a datagram that is
too short, the envelope's before the header's. -/
def Obligations.EveryRowTakesTheSameError : Prop :=
  ∀ (sel : SelWord) (i : Instr) (s : State), i ∈ decodeRows (.selector sel) →
    s.n.toNat < 20 + need s.params.af3SourceCompat (sel.extractLsb' 10 2) (sel.getLsbD 7) (sel.extractLsb' 8 2) →
    exec i s = .next (afterError (if s.n.toNat < 20 then 1#2 else 2#2) s)

/-! ### The fields of a decoded datagram -/

/-- 40_envelope.md R112: after a successful decode every envelope register equals the value read back from `BUF`. -/
def Obligations.EnvelopeRoundTrip : Prop :=
  ∀ s t : State, Completing s → step s = .next t → t.valid = true →
    t.res.envLength = bufByte t 0 ++ bufByte t 1 ∧
    t.res.envVersion = bufByte t 2 ∧ t.res.envType = bufByte t 3 ∧
    t.res.envExthdr = bufByte t 4 ∧ t.res.envFlags = bufByte t 5 ∧
    t.res.envVendor = bufByte t 6 ++ bufByte t 7 ∧
    t.res.envSession = bufByte t 8 ++ bufByte t 9 ++ bufByte t 10 ++ bufByte t 11 ∧
    t.res.envSequence = bufByte t 12 ++ bufByte t 13 ++ bufByte t 14 ++ bufByte t 15 ∧
    t.res.envTimestamp = bufByte t 16 ++ bufByte t 17 ++ bufByte t 18 ++ bufByte t 19

/-- 41_lon_header.md R121 to R130: the flags byte, the format byte and the source address of a successful decode. -/
def Obligations.HeaderFieldsReported : Prop :=
  ∀ s t : State, Completing s → step s = .next t → t.valid = true →
    t.res.hdrPriority = (bufByte s 20).getLsbD 7 ∧ t.res.hdrAltpath = (bufByte s 20).getLsbD 6 ∧
    t.res.hdrBacklog = (bufByte s 20).extractLsb 5 0 ∧
    t.res.hdrVersion = (bufByte s 21).extractLsb 7 6 ∧ t.res.hdrPdufmt = (bufByte s 21).extractLsb 5 4 ∧
    t.res.hdrAddrfmt = (bufByte s 21).extractLsb 3 2 ∧ t.res.hdrDomlenCode = (bufByte s 21).extractLsb 1 0 ∧
    t.res.srcSubnet = bufByte s 22 ∧ t.res.srcNode = (bufByte s 23).extractLsb 6 0 ∧
    t.res.srcMode = (bufByte s 23).getLsbD 7

/-- 41_lon_header.md R137: the destination registers that the selected variant does not name are 0. -/
def Obligations.UnpopulatedDestinationIsZero : Prop :=
  ∀ s t : State, Completing s → step s = .next t → t.valid = true →
    (t.res.addrVariant = 0#3 →
      t.res.dstNode = 0 ∧ t.res.dstGroup = 0 ∧ t.res.group = 0 ∧ t.res.groupMember = 0 ∧ t.res.neuronId = 0) ∧
    (t.res.addrVariant = 1#3 →
      t.res.dstSubnet = 0 ∧ t.res.dstNode = 0 ∧ t.res.group = 0 ∧ t.res.groupMember = 0 ∧ t.res.neuronId = 0) ∧
    (t.res.addrVariant = 2#3 →
      t.res.dstGroup = 0 ∧ t.res.group = 0 ∧ t.res.groupMember = 0 ∧ t.res.neuronId = 0) ∧
    (t.res.addrVariant = 3#3 → t.res.dstGroup = 0 ∧ t.res.neuronId = 0) ∧
    (t.res.addrVariant = 4#3 →
      t.res.dstNode = 0 ∧ t.res.dstGroup = 0 ∧ t.res.group = 0 ∧ t.res.groupMember = 0)

/-- 41_lon_header.md R141: the payload is all that follows the domain, up to `N`. -/
def Obligations.PayloadIsTheRest : Prop :=
  ∀ s t : State, Completing s → step s = .next t → t.valid = true →
    t.res.payloadOff.toNat = 20 + t.res.domainOff.toNat + t.res.domainLen.toNat ∧
    t.res.payloadOff.toNat ≤ s.n.toNat ∧
    t.res.payloadLen.toNat = s.n.toNat - t.res.payloadOff.toNat ∧ t.buf = s.buf

/-! ### What a decode does not depend on -/

/-- 20_memory.md R48 and 42_host_control.md R179: bytes at or above `min(N, 37)` have no influence on a decode. -/
def Obligations.DecodeReadsOnlyItsDatagram : Prop :=
  ∀ (s : State) (m : Memory), Completing s →
    (∀ a, a < min s.n.toNat 37 → bufByte { s with buf := m } a = bufByte s a) →
    ∃ t : State, step s = .next t ∧
      step { s with buf := m } =
        .next { t with buf := m, bufRdata := readPort { s with buf := m } (portsNow s).bufRaddr }

/-- 40_envelope.md R111: a different declared length changes `ENV_LENGTH` and nothing else of the outcome, and the payload extends
to `N`. -/
def Obligations.DeclaredLengthNotChecked : Prop :=
  ∀ (s : State) (m : Memory), Completing s →
    (∀ a, 2 ≤ a → bufByte { s with buf := m } a = bufByte s a) →
    ∃ t : State, step s = .next t ∧
      (t.valid = true → t.res.payloadOff.toNat + t.res.payloadLen.toNat = s.n.toNat) ∧
      step { s with buf := m } =
        .next { t with
          buf := m
          bufRdata := readPort { s with buf := m } (portsNow s).bufRaddr
          res := { t.res with envLength :=
            if t.valid then bufByte { s with buf := m } 0 ++ bufByte { s with buf := m } 1 else 0#16 } }

/-- 41_lon_header.md R136, for datagrams that decode in BOTH settings of `AF3_SOURCE_COMPAT`, over `Decode()` alone: the results
differ in `DOMAIN_OFF`, `DOMAIN`, `PAYLOAD_OFF` and `PAYLOAD_LEN` only, and not at all outside address-format 3. A NEURON_ID
datagram with `31 ≤ N < 31 + DOMAIN_LEN` decodes in one setting only (30_encoding.md R70): `CompatSettingAtCompletion` says what
happens to it, and to every other datagram, at the completing edge. -/
def Obligations.CompatChangesOnlyDomainAndPayload : Prop :=
  ∀ (p : Params) (n : Nat) (b : Nat → Byte) (r r' : Results),
    decodePacket { p with af3SourceCompat := false } n b = .ok r →
    decodePacket { p with af3SourceCompat := true } n b = .ok r' →
    r' = { r with domainOff := r'.domainOff, domain := r'.domain, payloadOff := r'.payloadOff, payloadLen := r'.payloadLen } ∧
    (r.hdrAddrfmt ≠ 3#2 → r' = r)

/-- 41_lon_header.md R136 and R142, 30_encoding.md R70: what `AF3_SOURCE_COMPAT` changes at a completing edge, for every datagram. One
state completes in both settings, to `t` (corrected) and `t'` (literal). Outside address-format 3 only the parameter itself
differs. Within it, a datagram that holds the corrected layout decodes in both settings, with the literal domain and payload
starting inside the neuron-id; one with `31 ≤ N < 31 + DOMAIN_LEN` is `TruncatedHeader` in the corrected setting and decodes in
the literal one; a shorter one takes the same error in both. -/
def Obligations.CompatSettingAtCompletion : Prop :=
  ∀ (s : State) (k : Nat), Completing s → dlen ((bufByte s 21).extractLsb' 0 2) = k →
    ∃ t t' : State,
      step { s with params := { s.params with af3SourceCompat := false } } = .next t ∧
      step { s with params := { s.params with af3SourceCompat := true } } = .next t' ∧
      ((bufByte s 21).extractLsb' 2 2 ≠ 3#2 → t' = { t with params := t'.params }) ∧
      ((bufByte s 21).extractLsb' 2 2 = 3#2 →
        (31 + k ≤ s.n.toNat →
          t.valid = true ∧ t.err = 0#2 ∧ t.res.domainOff = 11#5 ∧
          t.res.domain = domainValue (bufByte s) 31 ((bufByte s 21).extractLsb' 0 2) ∧
          t.res.payloadOff.toNat = 31 + k ∧ t.res.payloadLen.toNat = s.n.toNat - (31 + k) ∧
          t' = { t with
            params := t'.params
            res := { t.res with
              domainOff := 5#5
              domain := domainValue (bufByte s) 25 ((bufByte s 21).extractLsb' 0 2)
              payloadOff := BitVec.ofNat 16 (25 + k)
              payloadLen := BitVec.ofNat 16 (s.n.toNat - (25 + k)) } }) ∧
        (31 ≤ s.n.toNat → s.n.toNat < 31 + k →
          t.valid = false ∧ t.err = 2#2 ∧ t.res = Results.zero ∧ t'.valid = true ∧ t'.err = 0#2 ∧
          t'.res.domainOff = 5#5 ∧ t'.res.domain = domainValue (bufByte s) 25 ((bufByte s 21).extractLsb' 0 2) ∧
          t'.res.payloadOff.toNat = 25 + k ∧ t'.res.payloadLen.toNat = s.n.toNat - (25 + k)) ∧
        (s.n.toNat < 31 →
          t.valid = false ∧ t.err = (if s.n.toNat < 20 then 1#2 else 2#2) ∧ t.res = Results.zero ∧
          t' = { t with params := t'.params }))

/-- 20_memory.md R41: a byte of `BUF` changes only by an accepted `BUF_WRITE` to its own index; no decode and no reset writes
`BUF`. -/
def Obligations.BufferChangesOnlyByWrite : Prop :=
  ∀ (s t : State) (a : Nat), step s = .next t → bufByte t a ≠ bufByte s a →
    (portsNow s).rst = false ∧ s.busy = false ∧ (portsNow s).start = false ∧ (portsNow s).bufWe = true ∧
    a = (portsNow s).bufWaddr.toNat ∧ a < s.params.maxLen ∧ bufByte t a = (portsNow s).bufWdata

/-- 10_state.md R30: no port and no step changes the parameters (the model carries them with the state: its own choice, log entry
2). -/
def Obligations.ParametersNeverChange : Prop :=
  ∀ s t : State, step s = .next t → t.params = s.params

/-! ### Lengths -/

/-- 30_encoding.md R70: the smallest datagram length that decodes, row by row, and the largest of them. -/
def Obligations.MinimumLengthTable : Prop :=
  ∀ p : Params,
    [0#2, 1#2, 2#2, 3#2].map (fun c => 20 + headerNeed p .subnet c) = [25, 26, 28, 31] ∧
    [0#2, 1#2, 2#2, 3#2].map (fun c => 20 + headerNeed p .group c) = [25, 26, 28, 31] ∧
    [0#2, 1#2, 2#2, 3#2].map (fun c => 20 + headerNeed p .subnetNode c) = [26, 27, 29, 32] ∧
    [0#2, 1#2, 2#2, 3#2].map (fun c => 20 + headerNeed p .subnetNodeGroup c) = [28, 29, 31, 34] ∧
    [0#2, 1#2, 2#2, 3#2].map (fun c => 20 + headerNeed p .neuronId c) =
      (if p.af3SourceCompat then [31, 31, 31, 31] else [31, 32, 34, 37]) ∧
    (∀ v c, 20 + headerNeed p v c ≤ if p.af3SourceCompat then 34 else 37) ∧
    (∀ v c, domainOffset p v + domainBytes c ≤ headerNeed p v c)

/-- 41_lon_header.md R144: checking the bound before each indexed read, in step order, gives the verdict of the one check of
R143. -/
def Obligations.StepwiseCheckAgrees : Prop :=
  ∀ (compat : Bool) (af : BitVec 2) (mode : Bool) (code : BitVec 2) (n : Nat),
    readsFit n (readEnds compat af mode code) = false ↔ (n < 24 ∨ n < 20 + need compat af mode code)
end

