-- ==== Sys2Proof/Laws/Encoding.lean ====
section
/-! SUPPORT. The bits of an encoded selector word, and its masked fields (30_encoding.md R71). -/

namespace Sys2Proof

/-- The values of a 2-bit field. -/
theorem two_bit_cases (x : BitVec 2) : x = 0#2 ∨ x = 1#2 ∨ x = 2#2 ∨ x = 3#2 := by decide +revert

/-- Each bit of a selector word belongs to one field. -/
theorem packSel_getLsbD (f : SelFields) (i : Nat) :
    (packSel f).getLsbD i =
      if i < 7 then f.srcNode.getLsbD i
      else if i < 8 then f.modeFlag
      else if i < 10 then f.domainLengthCode.getLsbD (i - 8)
      else if i < 12 then f.addressFormat.getLsbD (i - 10)
      else if i < 14 then f.pduFormat.getLsbD (i - 12)
      else f.version.getLsbD (i - 14) := by
  have h : (packSel f).getLsbD i = BitVec.getLsbD (w := 2 + 2 + 2 + 2 + 1 + 7)
      (f.version ++ f.pduFormat ++ f.addressFormat ++ f.domainLengthCode ++ BitVec.ofBool f.modeFlag ++ f.srcNode) i := rfl
  rw [h]
  simp only [BitVec.getLsbD_append, BitVec.getLsbD_ofBool]
  grind

/-- The address-format field under its mask. -/
theorem packSel_and_addressFormat (f : SelFields) :
    packSel f &&& 0x0C00#16 = f.addressFormat.setWidth 16 <<< 10 := by
  refine BitVec.eq_of_getLsbD_eq fun i hi => ?_
  rw [BitVec.getLsbD_and, packSel_getLsbD]
  interval_cases i <;> simp

/-- The address-format field and the mode flag under their mask. -/
theorem packSel_and_addressFormat_modeFlag (f : SelFields) :
    packSel f &&& 0x0C80#16 = f.addressFormat.setWidth 16 <<< 10 ||| (BitVec.ofBool f.modeFlag).setWidth 16 <<< 7 := by
  refine BitVec.eq_of_getLsbD_eq fun i hi => ?_
  rw [BitVec.getLsbD_and, packSel_getLsbD]
  interval_cases i <;> simp

/-- The domain-length-code field under its mask. -/
theorem packSel_and_domainLengthCode (f : SelFields) :
    packSel f &&& 0x0300#16 = f.domainLengthCode.setWidth 16 <<< 8 := by
  refine BitVec.eq_of_getLsbD_eq fun i hi => ?_
  rw [BitVec.getLsbD_and, packSel_getLsbD]
  interval_cases i <;> simp

/-- The pdu-format field under its mask. -/
theorem packSel_and_pduFormat (f : SelFields) :
    packSel f &&& 0x3000#16 = f.pduFormat.setWidth 16 <<< 12 := by
  refine BitVec.eq_of_getLsbD_eq fun i hi => ?_
  rw [BitVec.getLsbD_and, packSel_getLsbD]
  interval_cases i <;> simp

end Sys2Proof
end

