-- ==== Sys2Proof/Laws/State.lean ====
section
/-! SUPPORT. One lemma per field of State per update of Machine/Flags.lean, Machine/Ops.lean and Machine/Operands.lean, and
the reads of `BUF` across each update. -/

namespace Sys2Proof.Machine

/-! ### clearDone -/

@[simp] theorem clearDone_params (s : State) : (clearDone s).params = s.params := rfl
@[simp] theorem clearDone_inputs (s : State) : (clearDone s).inputs = s.inputs := rfl
@[simp] theorem clearDone_bufRdata (s : State) : (clearDone s).bufRdata = s.bufRdata := rfl
@[simp] theorem clearDone_busy (s : State) : (clearDone s).busy = s.busy := rfl
@[simp] theorem clearDone_cnt (s : State) : (clearDone s).cnt = s.cnt := rfl
@[simp] theorem clearDone_n (s : State) : (clearDone s).n = s.n := rfl
@[simp] theorem clearDone_valid (s : State) : (clearDone s).valid = s.valid := rfl
@[simp] theorem clearDone_done (s : State) : (clearDone s).done = false := rfl
@[simp] theorem clearDone_err (s : State) : (clearDone s).err = s.err := rfl
@[simp] theorem clearDone_res (s : State) : (clearDone s).res = s.res := rfl
@[simp] theorem clearDone_buf (s : State) : (clearDone s).buf = s.buf := rfl

/-! ### statusAccepted -/

@[simp] theorem statusAccepted_params (s : State) : (statusAccepted s).params = s.params := rfl
@[simp] theorem statusAccepted_inputs (s : State) : (statusAccepted s).inputs = s.inputs := rfl
@[simp] theorem statusAccepted_bufRdata (s : State) : (statusAccepted s).bufRdata = s.bufRdata := rfl
@[simp] theorem statusAccepted_busy (s : State) : (statusAccepted s).busy = true := rfl
@[simp] theorem statusAccepted_cnt (s : State) : (statusAccepted s).cnt = s.params.decodeLatency := rfl
@[simp] theorem statusAccepted_n (s : State) : (statusAccepted s).n = s.n := rfl
@[simp] theorem statusAccepted_valid (s : State) : (statusAccepted s).valid = false := rfl
@[simp] theorem statusAccepted_done (s : State) : (statusAccepted s).done = false := rfl
@[simp] theorem statusAccepted_err (s : State) : (statusAccepted s).err = 0#2 := rfl
@[simp] theorem statusAccepted_res (s : State) : (statusAccepted s).res = s.res := rfl
@[simp] theorem statusAccepted_buf (s : State) : (statusAccepted s).buf = s.buf := rfl

/-! ### statusCompleted -/

@[simp] theorem statusCompleted_params (s : State) : (statusCompleted s).params = s.params := rfl
@[simp] theorem statusCompleted_inputs (s : State) : (statusCompleted s).inputs = s.inputs := rfl
@[simp] theorem statusCompleted_bufRdata (s : State) : (statusCompleted s).bufRdata = s.bufRdata := rfl
@[simp] theorem statusCompleted_busy (s : State) : (statusCompleted s).busy = false := rfl
@[simp] theorem statusCompleted_cnt (s : State) : (statusCompleted s).cnt = 0 := rfl
@[simp] theorem statusCompleted_n (s : State) : (statusCompleted s).n = s.n := rfl
@[simp] theorem statusCompleted_valid (s : State) : (statusCompleted s).valid = true := rfl
@[simp] theorem statusCompleted_done (s : State) : (statusCompleted s).done = true := rfl
@[simp] theorem statusCompleted_err (s : State) : (statusCompleted s).err = 0#2 := rfl
@[simp] theorem statusCompleted_res (s : State) : (statusCompleted s).res = s.res := rfl
@[simp] theorem statusCompleted_buf (s : State) : (statusCompleted s).buf = s.buf := rfl

/-! ### statusFailed -/

@[simp] theorem statusFailed_params (e : DecodeError) (s : State) : (statusFailed e s).params = s.params := rfl
@[simp] theorem statusFailed_inputs (e : DecodeError) (s : State) : (statusFailed e s).inputs = s.inputs := rfl
@[simp] theorem statusFailed_bufRdata (e : DecodeError) (s : State) : (statusFailed e s).bufRdata = s.bufRdata := rfl
@[simp] theorem statusFailed_busy (e : DecodeError) (s : State) : (statusFailed e s).busy = false := rfl
@[simp] theorem statusFailed_cnt (e : DecodeError) (s : State) : (statusFailed e s).cnt = 0 := rfl
@[simp] theorem statusFailed_n (e : DecodeError) (s : State) : (statusFailed e s).n = s.n := rfl
@[simp] theorem statusFailed_valid (e : DecodeError) (s : State) : (statusFailed e s).valid = false := rfl
@[simp] theorem statusFailed_done (e : DecodeError) (s : State) : (statusFailed e s).done = true := rfl
@[simp] theorem statusFailed_err (e : DecodeError) (s : State) : (statusFailed e s).err = errCode e := rfl
@[simp] theorem statusFailed_res (e : DecodeError) (s : State) : (statusFailed e s).res = s.res := rfl
@[simp] theorem statusFailed_buf (e : DecodeError) (s : State) : (statusFailed e s).buf = s.buf := rfl

/-! ### countDown -/

@[simp] theorem countDown_params (s : State) : (countDown s).params = s.params := rfl
@[simp] theorem countDown_inputs (s : State) : (countDown s).inputs = s.inputs := rfl
@[simp] theorem countDown_bufRdata (s : State) : (countDown s).bufRdata = s.bufRdata := rfl
@[simp] theorem countDown_busy (s : State) : (countDown s).busy = s.busy := rfl
@[simp] theorem countDown_cnt (s : State) : (countDown s).cnt = cntLessOne (cntWidth s.params.decodeLatency) s.cnt := rfl
@[simp] theorem countDown_n (s : State) : (countDown s).n = s.n := rfl
@[simp] theorem countDown_valid (s : State) : (countDown s).valid = s.valid := rfl
@[simp] theorem countDown_done (s : State) : (countDown s).done = s.done := rfl
@[simp] theorem countDown_err (s : State) : (countDown s).err = s.err := rfl
@[simp] theorem countDown_res (s : State) : (countDown s).res = s.res := rfl
@[simp] theorem countDown_buf (s : State) : (countDown s).buf = s.buf := rfl

/-! ### memWrite -/

@[simp] theorem memWrite_params (a : Nat) (v : Byte) (s : State) : (memWrite a v s).params = s.params := rfl
@[simp] theorem memWrite_inputs (a : Nat) (v : Byte) (s : State) : (memWrite a v s).inputs = s.inputs := rfl
@[simp] theorem memWrite_bufRdata (a : Nat) (v : Byte) (s : State) : (memWrite a v s).bufRdata = s.bufRdata := rfl
@[simp] theorem memWrite_busy (a : Nat) (v : Byte) (s : State) : (memWrite a v s).busy = s.busy := rfl
@[simp] theorem memWrite_cnt (a : Nat) (v : Byte) (s : State) : (memWrite a v s).cnt = s.cnt := rfl
@[simp] theorem memWrite_n (a : Nat) (v : Byte) (s : State) : (memWrite a v s).n = s.n := rfl
@[simp] theorem memWrite_valid (a : Nat) (v : Byte) (s : State) : (memWrite a v s).valid = s.valid := rfl
@[simp] theorem memWrite_done (a : Nat) (v : Byte) (s : State) : (memWrite a v s).done = s.done := rfl
@[simp] theorem memWrite_err (a : Nat) (v : Byte) (s : State) : (memWrite a v s).err = s.err := rfl
@[simp] theorem memWrite_res (a : Nat) (v : Byte) (s : State) : (memWrite a v s).res = s.res := rfl
@[simp] theorem memWrite_buf (a : Nat) (v : Byte) (s : State) : (memWrite a v s).buf = memStore s.buf a v := rfl

/-! ### sampleRead -/

@[simp] theorem sampleRead_params (raddr : Half) (s : State) : (sampleRead raddr s).params = s.params := rfl
@[simp] theorem sampleRead_inputs (raddr : Half) (s : State) : (sampleRead raddr s).inputs = s.inputs := rfl
@[simp] theorem sampleRead_bufRdata (raddr : Half) (s : State) : (sampleRead raddr s).bufRdata = readPort s raddr := rfl
@[simp] theorem sampleRead_busy (raddr : Half) (s : State) : (sampleRead raddr s).busy = s.busy := rfl
@[simp] theorem sampleRead_cnt (raddr : Half) (s : State) : (sampleRead raddr s).cnt = s.cnt := rfl
@[simp] theorem sampleRead_n (raddr : Half) (s : State) : (sampleRead raddr s).n = s.n := rfl
@[simp] theorem sampleRead_valid (raddr : Half) (s : State) : (sampleRead raddr s).valid = s.valid := rfl
@[simp] theorem sampleRead_done (raddr : Half) (s : State) : (sampleRead raddr s).done = s.done := rfl
@[simp] theorem sampleRead_err (raddr : Half) (s : State) : (sampleRead raddr s).err = s.err := rfl
@[simp] theorem sampleRead_res (raddr : Half) (s : State) : (sampleRead raddr s).res = s.res := rfl
@[simp] theorem sampleRead_buf (raddr : Half) (s : State) : (sampleRead raddr s).buf = s.buf := rfl

/-! ### popInputs -/

@[simp] theorem popInputs_params (s : State) : (popInputs s).params = s.params := rfl
@[simp] theorem popInputs_inputs (s : State) : (popInputs s).inputs = s.inputs.tail := rfl
@[simp] theorem popInputs_bufRdata (s : State) : (popInputs s).bufRdata = s.bufRdata := rfl
@[simp] theorem popInputs_busy (s : State) : (popInputs s).busy = s.busy := rfl
@[simp] theorem popInputs_cnt (s : State) : (popInputs s).cnt = s.cnt := rfl
@[simp] theorem popInputs_n (s : State) : (popInputs s).n = s.n := rfl
@[simp] theorem popInputs_valid (s : State) : (popInputs s).valid = s.valid := rfl
@[simp] theorem popInputs_done (s : State) : (popInputs s).done = s.done := rfl
@[simp] theorem popInputs_err (s : State) : (popInputs s).err = s.err := rfl
@[simp] theorem popInputs_res (s : State) : (popInputs s).res = s.res := rfl
@[simp] theorem popInputs_buf (s : State) : (popInputs s).buf = s.buf := rfl

/-! ### acceptDecode -/

@[simp] theorem acceptDecode_params (len : Half) (s : State) : (acceptDecode len s).params = s.params := rfl
@[simp] theorem acceptDecode_inputs (len : Half) (s : State) : (acceptDecode len s).inputs = s.inputs := rfl
@[simp] theorem acceptDecode_bufRdata (len : Half) (s : State) : (acceptDecode len s).bufRdata = s.bufRdata := rfl
@[simp] theorem acceptDecode_busy (len : Half) (s : State) : (acceptDecode len s).busy = true := rfl
@[simp] theorem acceptDecode_cnt (len : Half) (s : State) : (acceptDecode len s).cnt = s.params.decodeLatency := rfl
@[simp] theorem acceptDecode_n (len : Half) (s : State) : (acceptDecode len s).n = effectiveLen s.params len := rfl
@[simp] theorem acceptDecode_valid (len : Half) (s : State) : (acceptDecode len s).valid = false := rfl
@[simp] theorem acceptDecode_done (len : Half) (s : State) : (acceptDecode len s).done = false := rfl
@[simp] theorem acceptDecode_err (len : Half) (s : State) : (acceptDecode len s).err = 0#2 := rfl
@[simp] theorem acceptDecode_res (len : Half) (s : State) : (acceptDecode len s).res = Results.zero := rfl
@[simp] theorem acceptDecode_buf (len : Half) (s : State) : (acceptDecode len s).buf = s.buf := rfl

/-! ### takeError -/

@[simp] theorem takeError_params (e : DecodeError) (s : State) : (takeError e s).params = s.params := rfl
@[simp] theorem takeError_inputs (e : DecodeError) (s : State) : (takeError e s).inputs = s.inputs := rfl
@[simp] theorem takeError_bufRdata (e : DecodeError) (s : State) : (takeError e s).bufRdata = s.bufRdata := rfl
@[simp] theorem takeError_busy (e : DecodeError) (s : State) : (takeError e s).busy = false := rfl
@[simp] theorem takeError_cnt (e : DecodeError) (s : State) : (takeError e s).cnt = 0 := rfl
@[simp] theorem takeError_n (e : DecodeError) (s : State) : (takeError e s).n = s.n := rfl
@[simp] theorem takeError_valid (e : DecodeError) (s : State) : (takeError e s).valid = false := rfl
@[simp] theorem takeError_done (e : DecodeError) (s : State) : (takeError e s).done = true := rfl
@[simp] theorem takeError_err (e : DecodeError) (s : State) : (takeError e s).err = errCode e := rfl
@[simp] theorem takeError_res (e : DecodeError) (s : State) : (takeError e s).res = Results.zero := rfl
@[simp] theorem takeError_buf (e : DecodeError) (s : State) : (takeError e s).buf = s.buf := rfl

/-! ### applyReset -/

@[simp] theorem applyReset_params (s : State) : (applyReset s).params = s.params := rfl
@[simp] theorem applyReset_inputs (s : State) : (applyReset s).inputs = s.inputs := rfl
@[simp] theorem applyReset_bufRdata (s : State) : (applyReset s).bufRdata = s.bufRdata := rfl
@[simp] theorem applyReset_busy (s : State) : (applyReset s).busy = false := rfl
@[simp] theorem applyReset_cnt (s : State) : (applyReset s).cnt = 0 := rfl
@[simp] theorem applyReset_n (s : State) : (applyReset s).n = 0#16 := rfl
@[simp] theorem applyReset_valid (s : State) : (applyReset s).valid = false := rfl
@[simp] theorem applyReset_done (s : State) : (applyReset s).done = false := rfl
@[simp] theorem applyReset_err (s : State) : (applyReset s).err = 0#2 := rfl
@[simp] theorem applyReset_res (s : State) : (applyReset s).res = Results.zero := rfl
@[simp] theorem applyReset_buf (s : State) : (applyReset s).buf = s.buf := rfl

/-! ### writeDestination -/

@[simp] theorem writeDestination_params (d : Destination) (s : State) : (writeDestination d s).params = s.params := rfl
@[simp] theorem writeDestination_inputs (d : Destination) (s : State) : (writeDestination d s).inputs = s.inputs := rfl
@[simp] theorem writeDestination_bufRdata (d : Destination) (s : State) : (writeDestination d s).bufRdata = s.bufRdata := rfl
@[simp] theorem writeDestination_busy (d : Destination) (s : State) : (writeDestination d s).busy = s.busy := rfl
@[simp] theorem writeDestination_cnt (d : Destination) (s : State) : (writeDestination d s).cnt = s.cnt := rfl
@[simp] theorem writeDestination_n (d : Destination) (s : State) : (writeDestination d s).n = s.n := rfl
@[simp] theorem writeDestination_valid (d : Destination) (s : State) : (writeDestination d s).valid = s.valid := rfl
@[simp] theorem writeDestination_done (d : Destination) (s : State) : (writeDestination d s).done = s.done := rfl
@[simp] theorem writeDestination_err (d : Destination) (s : State) : (writeDestination d s).err = s.err := rfl
@[simp] theorem writeDestination_buf (d : Destination) (s : State) : (writeDestination d s).buf = s.buf := rfl

/-! ### writeDomain -/

@[simp] theorem writeDomain_params (v : Variant) (k : Nat) (s : State) : (writeDomain v k s).params = s.params := rfl
@[simp] theorem writeDomain_inputs (v : Variant) (k : Nat) (s : State) : (writeDomain v k s).inputs = s.inputs := rfl
@[simp] theorem writeDomain_bufRdata (v : Variant) (k : Nat) (s : State) : (writeDomain v k s).bufRdata = s.bufRdata := rfl
@[simp] theorem writeDomain_busy (v : Variant) (k : Nat) (s : State) : (writeDomain v k s).busy = s.busy := rfl
@[simp] theorem writeDomain_cnt (v : Variant) (k : Nat) (s : State) : (writeDomain v k s).cnt = s.cnt := rfl
@[simp] theorem writeDomain_n (v : Variant) (k : Nat) (s : State) : (writeDomain v k s).n = s.n := rfl
@[simp] theorem writeDomain_valid (v : Variant) (k : Nat) (s : State) : (writeDomain v k s).valid = s.valid := rfl
@[simp] theorem writeDomain_done (v : Variant) (k : Nat) (s : State) : (writeDomain v k s).done = s.done := rfl
@[simp] theorem writeDomain_err (v : Variant) (k : Nat) (s : State) : (writeDomain v k s).err = s.err := rfl
@[simp] theorem writeDomain_buf (v : Variant) (k : Nat) (s : State) : (writeDomain v k s).buf = s.buf := rfl

/-! ### writePdufmt -/

@[simp] theorem writePdufmt_params (code : BitVec 2) (s : State) : (writePdufmt code s).params = s.params := rfl
@[simp] theorem writePdufmt_inputs (code : BitVec 2) (s : State) : (writePdufmt code s).inputs = s.inputs := rfl
@[simp] theorem writePdufmt_bufRdata (code : BitVec 2) (s : State) : (writePdufmt code s).bufRdata = s.bufRdata := rfl
@[simp] theorem writePdufmt_busy (code : BitVec 2) (s : State) : (writePdufmt code s).busy = s.busy := rfl
@[simp] theorem writePdufmt_cnt (code : BitVec 2) (s : State) : (writePdufmt code s).cnt = s.cnt := rfl
@[simp] theorem writePdufmt_n (code : BitVec 2) (s : State) : (writePdufmt code s).n = s.n := rfl
@[simp] theorem writePdufmt_valid (code : BitVec 2) (s : State) : (writePdufmt code s).valid = s.valid := rfl
@[simp] theorem writePdufmt_done (code : BitVec 2) (s : State) : (writePdufmt code s).done = s.done := rfl
@[simp] theorem writePdufmt_err (code : BitVec 2) (s : State) : (writePdufmt code s).err = s.err := rfl
@[simp] theorem writePdufmt_buf (code : BitVec 2) (s : State) : (writePdufmt code s).buf = s.buf := rfl

/-! ### writeEnvelope -/

@[simp] theorem writeEnvelope_params (s : State) : (writeEnvelope s).params = s.params := rfl
@[simp] theorem writeEnvelope_inputs (s : State) : (writeEnvelope s).inputs = s.inputs := rfl
@[simp] theorem writeEnvelope_bufRdata (s : State) : (writeEnvelope s).bufRdata = s.bufRdata := rfl
@[simp] theorem writeEnvelope_busy (s : State) : (writeEnvelope s).busy = s.busy := rfl
@[simp] theorem writeEnvelope_cnt (s : State) : (writeEnvelope s).cnt = s.cnt := rfl
@[simp] theorem writeEnvelope_n (s : State) : (writeEnvelope s).n = s.n := rfl
@[simp] theorem writeEnvelope_valid (s : State) : (writeEnvelope s).valid = s.valid := rfl
@[simp] theorem writeEnvelope_done (s : State) : (writeEnvelope s).done = s.done := rfl
@[simp] theorem writeEnvelope_err (s : State) : (writeEnvelope s).err = s.err := rfl
@[simp] theorem writeEnvelope_buf (s : State) : (writeEnvelope s).buf = s.buf := rfl

/-! ### writeHeader -/

@[simp] theorem writeHeader_params (f : SelFields) (s : State) : (writeHeader f s).params = s.params := rfl
@[simp] theorem writeHeader_inputs (f : SelFields) (s : State) : (writeHeader f s).inputs = s.inputs := rfl
@[simp] theorem writeHeader_bufRdata (f : SelFields) (s : State) : (writeHeader f s).bufRdata = s.bufRdata := rfl
@[simp] theorem writeHeader_busy (f : SelFields) (s : State) : (writeHeader f s).busy = s.busy := rfl
@[simp] theorem writeHeader_cnt (f : SelFields) (s : State) : (writeHeader f s).cnt = s.cnt := rfl
@[simp] theorem writeHeader_n (f : SelFields) (s : State) : (writeHeader f s).n = s.n := rfl
@[simp] theorem writeHeader_valid (f : SelFields) (s : State) : (writeHeader f s).valid = s.valid := rfl
@[simp] theorem writeHeader_done (f : SelFields) (s : State) : (writeHeader f s).done = s.done := rfl
@[simp] theorem writeHeader_err (f : SelFields) (s : State) : (writeHeader f s).err = s.err := rfl
@[simp] theorem writeHeader_buf (f : SelFields) (s : State) : (writeHeader f s).buf = s.buf := rfl

/-! ### writePayload -/

@[simp] theorem writePayload_params (f : SelFields) (s : State) : (writePayload f s).params = s.params := rfl
@[simp] theorem writePayload_inputs (f : SelFields) (s : State) : (writePayload f s).inputs = s.inputs := rfl
@[simp] theorem writePayload_bufRdata (f : SelFields) (s : State) : (writePayload f s).bufRdata = s.bufRdata := rfl
@[simp] theorem writePayload_busy (f : SelFields) (s : State) : (writePayload f s).busy = s.busy := rfl
@[simp] theorem writePayload_cnt (f : SelFields) (s : State) : (writePayload f s).cnt = s.cnt := rfl
@[simp] theorem writePayload_n (f : SelFields) (s : State) : (writePayload f s).n = s.n := rfl
@[simp] theorem writePayload_valid (f : SelFields) (s : State) : (writePayload f s).valid = s.valid := rfl
@[simp] theorem writePayload_done (f : SelFields) (s : State) : (writePayload f s).done = s.done := rfl
@[simp] theorem writePayload_err (f : SelFields) (s : State) : (writePayload f s).err = s.err := rfl
@[simp] theorem writePayload_buf (f : SelFields) (s : State) : (writePayload f s).buf = s.buf := rfl

/-! ### Reads of `BUF` depend on `buf` alone -/

theorem bufByte_congr {s t : State} (h : s.buf = t.buf) : bufByte s = bufByte t := by
  funext a; simp only [bufByte, h]

theorem memRead_congr {s t : State} (h : s.buf = t.buf) (a n : Nat) : memRead s a n = memRead t a n := by
  induction n with
  | zero => rfl
  | succ n ih => simp only [memRead, ih, bufByte_congr h]

@[simp] theorem bufByte_clearDone (s : State) (i : Nat) : bufByte (clearDone s) i = bufByte s i := rfl
@[simp] theorem memRead_clearDone (s : State) (idx w : Nat) : memRead (clearDone s) idx w = memRead s idx w :=
  memRead_congr (clearDone_buf s) idx w
@[simp] theorem bufByte_statusAccepted (s : State) (i : Nat) : bufByte (statusAccepted s) i = bufByte s i := rfl
@[simp] theorem memRead_statusAccepted (s : State) (idx w : Nat) : memRead (statusAccepted s) idx w = memRead s idx w :=
  memRead_congr (statusAccepted_buf s) idx w
@[simp] theorem bufByte_statusCompleted (s : State) (i : Nat) : bufByte (statusCompleted s) i = bufByte s i := rfl
@[simp] theorem memRead_statusCompleted (s : State) (idx w : Nat) : memRead (statusCompleted s) idx w = memRead s idx w :=
  memRead_congr (statusCompleted_buf s) idx w
@[simp] theorem bufByte_statusFailed (e : DecodeError) (s : State) (i : Nat) : bufByte (statusFailed e s) i = bufByte s i := rfl
@[simp] theorem memRead_statusFailed (e : DecodeError) (s : State) (idx w : Nat) : memRead (statusFailed e s) idx w = memRead s idx w :=
  memRead_congr (statusFailed_buf e s) idx w
@[simp] theorem bufByte_countDown (s : State) (i : Nat) : bufByte (countDown s) i = bufByte s i := rfl
@[simp] theorem memRead_countDown (s : State) (idx w : Nat) : memRead (countDown s) idx w = memRead s idx w :=
  memRead_congr (countDown_buf s) idx w
@[simp] theorem bufByte_sampleRead (raddr : Half) (s : State) (i : Nat) : bufByte (sampleRead raddr s) i = bufByte s i := rfl
@[simp] theorem memRead_sampleRead (raddr : Half) (s : State) (idx w : Nat) : memRead (sampleRead raddr s) idx w = memRead s idx w :=
  memRead_congr (sampleRead_buf raddr s) idx w
@[simp] theorem bufByte_popInputs (s : State) (i : Nat) : bufByte (popInputs s) i = bufByte s i := rfl
@[simp] theorem memRead_popInputs (s : State) (idx w : Nat) : memRead (popInputs s) idx w = memRead s idx w :=
  memRead_congr (popInputs_buf s) idx w
@[simp] theorem bufByte_acceptDecode (len : Half) (s : State) (i : Nat) : bufByte (acceptDecode len s) i = bufByte s i := rfl
@[simp] theorem memRead_acceptDecode (len : Half) (s : State) (idx w : Nat) : memRead (acceptDecode len s) idx w = memRead s idx w :=
  memRead_congr (acceptDecode_buf len s) idx w
@[simp] theorem bufByte_takeError (e : DecodeError) (s : State) (i : Nat) : bufByte (takeError e s) i = bufByte s i := rfl
@[simp] theorem memRead_takeError (e : DecodeError) (s : State) (idx w : Nat) : memRead (takeError e s) idx w = memRead s idx w :=
  memRead_congr (takeError_buf e s) idx w
@[simp] theorem bufByte_applyReset (s : State) (i : Nat) : bufByte (applyReset s) i = bufByte s i := rfl
@[simp] theorem memRead_applyReset (s : State) (idx w : Nat) : memRead (applyReset s) idx w = memRead s idx w :=
  memRead_congr (applyReset_buf s) idx w
@[simp] theorem bufByte_writeDestination (d : Destination) (s : State) (i : Nat) : bufByte (writeDestination d s) i = bufByte s i := rfl
@[simp] theorem memRead_writeDestination (d : Destination) (s : State) (idx w : Nat) : memRead (writeDestination d s) idx w = memRead s idx w :=
  memRead_congr (writeDestination_buf d s) idx w
@[simp] theorem bufByte_writeDomain (v : Variant) (k : Nat) (s : State) (i : Nat) : bufByte (writeDomain v k s) i = bufByte s i := rfl
@[simp] theorem memRead_writeDomain (v : Variant) (k : Nat) (s : State) (idx w : Nat) : memRead (writeDomain v k s) idx w = memRead s idx w :=
  memRead_congr (writeDomain_buf v k s) idx w
@[simp] theorem bufByte_writePdufmt (code : BitVec 2) (s : State) (i : Nat) : bufByte (writePdufmt code s) i = bufByte s i := rfl
@[simp] theorem memRead_writePdufmt (code : BitVec 2) (s : State) (idx w : Nat) : memRead (writePdufmt code s) idx w = memRead s idx w :=
  memRead_congr (writePdufmt_buf code s) idx w
@[simp] theorem bufByte_writeEnvelope (s : State) (i : Nat) : bufByte (writeEnvelope s) i = bufByte s i := rfl
@[simp] theorem memRead_writeEnvelope (s : State) (idx w : Nat) : memRead (writeEnvelope s) idx w = memRead s idx w :=
  memRead_congr (writeEnvelope_buf s) idx w
@[simp] theorem bufByte_writeHeader (f : SelFields) (s : State) (i : Nat) : bufByte (writeHeader f s) i = bufByte s i := rfl
@[simp] theorem memRead_writeHeader (f : SelFields) (s : State) (idx w : Nat) : memRead (writeHeader f s) idx w = memRead s idx w :=
  memRead_congr (writeHeader_buf f s) idx w
@[simp] theorem bufByte_writePayload (f : SelFields) (s : State) (i : Nat) : bufByte (writePayload f s) i = bufByte s i := rfl
@[simp] theorem memRead_writePayload (f : SelFields) (s : State) (idx w : Nat) : memRead (writePayload f s) idx w = memRead s idx w :=
  memRead_congr (writePayload_buf f s) idx w

end Sys2Proof.Machine
end

