-- ==== Sys2Proof/Laws/Memory.lean ====
section
/-! SUPPORT. The laws of the buffer: a read after a write, the canonical form, the bound of the indices, and the big-endian
reads written out. -/

namespace Sys2Proof.Machine

/-- The canonical form, head and tail. -/
theorem memory_wf_cons (c : Host.Cell) (m : Memory) :
    Memory.wf (c :: m) = true ↔ (∀ d ∈ m.head?, c.1 < d.1) ∧ Memory.wf m = true := by
  cases m <;> simp [Memory.wf]

theorem memLookup_memStore_same (m : Memory) (a : Nat) (v : Byte) : memLookup (memStore m a v) a = some v := by
  induction m with
  | nil => simp [memStore, memLookup]
  | cons c m ih =>
    obtain ⟨b, w⟩ := c
    by_cases h1 : a < b
    · simp [memStore, memLookup, h1]
    · by_cases h2 : a = b
      · simp [memStore, memLookup, h2]
      · simp [memStore, memLookup, h1, h2, ih]

theorem memLookup_memStore_other (m : Memory) {a i : Nat} (v : Byte) (h : i ≠ a) :
    memLookup (memStore m a v) i = memLookup m i := by
  induction m with
  | nil => simp [memStore, memLookup, h]
  | cons c m ih =>
    obtain ⟨b, w⟩ := c
    by_cases h1 : a < b
    · simp [memStore, memLookup, h1, h]
    · by_cases h2 : a = b
      · subst h2; simp [memStore, memLookup, h]
      · simp [memStore, memLookup, h1, h2, ih]

/-- The first index after a write is the old first index or the written one. -/
theorem memStore_head (m : Memory) (a : Nat) (v : Byte) {d : Host.Cell} (h : d ∈ (memStore m a v).head?) :
    d.1 = a ∨ d ∈ m.head? := by
  cases m with
  | nil => simp [memStore] at h; simp [← h]
  | cons c m =>
    obtain ⟨b, w⟩ := c
    simp only [memStore] at h
    split at h
    · simp at h; simp [← h]
    · split at h
      · simp at h; simp [← h]
      · simp at h; simp [h]

/-- A write keeps the canonical form. -/
theorem memStore_wf (m : Memory) (a : Nat) (v : Byte) (h : Memory.wf m = true) : Memory.wf (memStore m a v) = true := by
  induction m with
  | nil => rfl
  | cons c m ih =>
    obtain ⟨b, w⟩ := c
    obtain ⟨hd, ht⟩ := (memory_wf_cons _ _).1 h
    simp only [memStore]
    split
    · next hab => exact (memory_wf_cons _ _).2 ⟨by simp [hab], h⟩
    · split
      · next hab => subst hab; exact (memory_wf_cons _ _).2 ⟨hd, ht⟩
      · refine (memory_wf_cons _ _).2 ⟨fun d hmem => ?_, ih ht⟩
        rcases memStore_head m a v hmem with rfl | hm
        · omega
        · exact hd d hm

/-- A write below a bound keeps the indices below it. -/
theorem memStore_bounded (m : Memory) (a : Nat) (v : Byte) {k : Nat} (ha : a < k) (h : ∀ c ∈ m, c.1 < k) :
    ∀ c ∈ memStore m a v, c.1 < k := by
  induction m with
  | nil => simpa [memStore] using ha
  | cons c m ih =>
    obtain ⟨b, w⟩ := c
    have hm : ∀ c ∈ m, c.1 < k := fun c hc => h c (List.mem_cons_of_mem _ hc)
    have hb : b < k := h (b, w) List.mem_cons_self
    simp only [memStore]
    split
    · intro c hc
      rcases List.mem_cons.1 hc with rfl | hc
      · exact ha
      · exact h c hc
    · split
      · intro c hc
        rcases List.mem_cons.1 hc with rfl | hc
        · exact ha
        · exact hm c hc
      · intro c hc
        rcases List.mem_cons.1 hc with rfl | hc
        · exact hb
        · exact ih hm c hc

@[simp] theorem bufByte_memWrite_same (a : Nat) (v : Byte) (s : State) : bufByte (memWrite a v s) a = v := by
  simp [bufByte, memLookup_memStore_same]

theorem bufByte_memWrite_other {a i : Nat} (v : Byte) (s : State) (h : i ≠ a) :
    bufByte (memWrite a v s) i = bufByte s i := by
  simp [bufByte, memLookup_memStore_other _ _ h]

/-! ### `MemRead` written out (00_scope.md R8) -/

theorem memRead_zero (s : State) (a : Nat) : memRead s a 0 = 0#0 := rfl

theorem memRead_one (s : State) (a : Nat) : memRead s a 1 = bufByte s a := by
  show (0#0 ++ bufByte s a : BitVec (0 + 8)) = bufByte s a
  exact BitVec.eq_of_toNat_eq (by rw [BitVec.toNat_append]; simp)

theorem memRead_two (s : State) (a : Nat) : memRead s a 2 = bufByte s a ++ bufByte s (a + 1) := by
  rw [show memRead s a 2 = (memRead s a 1 ++ bufByte s (a + 1) : BitVec 16) from rfl, memRead_one]

theorem memRead_three (s : State) (a : Nat) :
    memRead s a 3 = bufByte s a ++ bufByte s (a + 1) ++ bufByte s (a + 2) := by
  rw [show memRead s a 3 = (memRead s a 2 ++ bufByte s (a + 2) : BitVec 24) from rfl, memRead_two]

theorem memRead_four (s : State) (a : Nat) :
    memRead s a 4 = bufByte s a ++ bufByte s (a + 1) ++ bufByte s (a + 2) ++ bufByte s (a + 3) := by
  rw [show memRead s a 4 = (memRead s a 3 ++ bufByte s (a + 3) : BitVec 32) from rfl, memRead_three]

theorem memRead_six (s : State) (a : Nat) :
    memRead s a 6 = bufByte s a ++ bufByte s (a + 1) ++ bufByte s (a + 2) ++ bufByte s (a + 3) ++ bufByte s (a + 4) ++
      bufByte s (a + 5) := by
  rw [show memRead s a 6 = (memRead s a 4 ++ bufByte s (a + 4) ++ bufByte s (a + 5) : BitVec 48) from rfl, memRead_four]

end Sys2Proof.Machine
end

