-- ==== Sys2Proof/Laws/Ops.lean ====
section
/-! SUPPORT. One lemma for each shared operation and each meaning, saying once everything it can do, for the proofs to cite. -/

namespace Sys2Proof.Machine

/-! ### Sequencing -/

@[simp] theorem andThen_next (s : State) (g : State → Host.Outcome State Fault Refusal) :
    andThen (.next s) g = g s := rfl

@[simp] theorem execAll_nil (s : State) : execAll [] s = .next s := rfl

@[simp] theorem execAll_cons (i : Instr) (is : List Instr) (s : State) :
    execAll (i :: is) s = andThen (exec i s) (execAll is) := rfl

/-! ### The length check -/

/-- The check passes exactly when all of the header's layout fits. -/
theorem decodeCheck_eq_none (p : Params) (n : Nat) (v : Variant) (code : BitVec 2) :
    decodeCheck p n v code = none ↔ 20 + headerNeed p v code ≤ n := by
  have : 5 ≤ headerNeed p v code := by
    unfold headerNeed; cases v <;> simp [addrEnd, addrLen]
  unfold decodeCheck
  split
  · simp; omega
  · split
    · simp; omega
    · split
      · simp; omega
      · simp; omega

/-- What a failing check reports: the envelope's error first. -/
theorem decodeCheck_eq_some (p : Params) (n : Nat) (v : Variant) (code : BitVec 2) (e : DecodeError) :
    decodeCheck p n v code = some e ↔
      n < 20 + headerNeed p v code ∧ e = (if n < 20 then DecodeError.truncatedEnvelope else .truncatedHeader) := by
  have : 5 ≤ headerNeed p v code := by
    unfold headerNeed; cases v <;> simp [addrEnd, addrLen]
  unfold decodeCheck
  by_cases h1 : n < 20
  · have : n < 20 + headerNeed p v code := by omega
    simp [h1, this, eq_comm]
  · by_cases h2 : n < 24
    · have : n < 20 + headerNeed p v code := by omega
      simp [h1, h2, this, eq_comm]
    · by_cases h3 : n < 20 + headerNeed p v code
      · simp [h1, h2, h3, eq_comm]
      · simp [h1, h2, h3]

/-- A row on a datagram that is long enough writes and does nothing else. -/
theorem withHeader_fits {v : Variant} {code : BitVec 2} (write : State → State) {s : State}
    (h : 20 + headerNeed s.params v code ≤ s.n.toNat) : withHeader v code write s = .next (write s) := by
  simp [withHeader, (decodeCheck_eq_none _ _ _ _).2 h]

/-- A row on a datagram that is too short takes the error. -/
theorem withHeader_short {v : Variant} {code : BitVec 2} (write : State → State) {s : State}
    (h : s.n.toNat < 20 + headerNeed s.params v code) :
    withHeader v code write s =
      .next (takeError (if s.n.toNat < 20 then .truncatedEnvelope else .truncatedHeader) s) := by
  simp [withHeader, (decodeCheck_eq_some _ _ _ _ _).2 ⟨h, rfl⟩]

/-- Entering an error twice is entering it once. -/
theorem takeError_takeError (e : DecodeError) (s : State) : takeError e (takeError e s) = takeError e s := rfl

/-! ### The selector of the datagram in `BUF` -/

/-- The fields of the datagram's own selector word, from its bytes `H[1]` and `H[3]` (30_encoding.md R63, R64). -/
theorem unpackSel_append (h1 h3 : Byte) :
    unpackSel (h1 ++ h3) =
      ⟨h1.extractLsb' 6 2, h1.extractLsb' 4 2, h1.extractLsb' 2 2, h1.extractLsb' 0 2, h3.getLsbD 7,
        h3.extractLsb' 0 7⟩ := by
  have bit : ∀ i, BitVec.getLsbD (w := 16) (h1 ++ h3) i = if i < 8 then h3.getLsbD i else h1.getLsbD (i - 8) :=
    fun i => BitVec.getLsbD_append
  have high : ∀ k w, BitVec.extractLsb' (n := 16) (k + 8) w (h1 ++ h3) = h1.extractLsb' k w := fun k w =>
    BitVec.eq_of_getLsbD_eq fun i hi => by
      simp only [BitVec.getLsbD_extractLsb', bit, hi, show ¬ (k + 8 + i < 8) by omega,
        show k + 8 + i - 8 = k + i by omega, if_false]
  have low : BitVec.extractLsb' (n := 16) 0 7 (h1 ++ h3) = h3.extractLsb' 0 7 :=
    BitVec.eq_of_getLsbD_eq fun i hi => by
      simp only [BitVec.getLsbD_extractLsb', bit, show 0 + i < 8 by omega, if_true]
  simp only [unpackSel, SelFields.mk.injEq]
  exact ⟨high 6 2, high 4 2, high 2 2, high 0 2, bit 7, low⟩

/-- `SEL` with its `BUF` indices. -/
theorem selWord_eq (s : State) : selWord s = bufByte s 21 ++ bufByte s 23 := rfl

/-! ### The ports -/

theorem readPort_below {s : State} {a : Half} (h : a.toNat < s.params.maxLen) : readPort s a = bufByte s a.toNat := by
  simp [readPort, h]

theorem readPort_above {s : State} {a : Half} (h : s.params.maxLen ≤ a.toNat) : readPort s a = 0x00#8 := by
  simp [readPort, Nat.not_lt.2 h]

/-- The write port writes its byte exactly when the block is idle and the index exists. -/
theorem writePort_cases (a : Half) (v : Byte) (s : State) :
    (s.busy = false ∧ a.toNat < s.params.maxLen ∧ writePort a v s = memWrite a.toNat v s) ∨
    ((s.busy = true ∨ s.params.maxLen ≤ a.toNat) ∧ writePort a v s = s) := by
  unfold writePort
  cases hb : s.busy
  · by_cases h : a.toNat < s.params.maxLen
    · simp [h]
    · simp [h, Nat.not_lt.1 h]
  · simp

theorem effectiveLen_toNat (p : Params) (len : Half) : (effectiveLen p len).toNat = min len.toNat p.maxLen := by
  have := len.isLt
  simp only [effectiveLen, BitVec.toNat_ofNat]
  exact Nat.mod_eq_of_lt (by omega)

/-! ### The cycle -/

/-- The rows of a cycle's command word, from the strobes. -/
theorem decodeRows_cmdWord (p : Ports) :
    decodeRows (.command (cmdWord p) (cmdPorts p)) =
      .bufRead p.bufRaddr ::
        (if p.start then [.decode p.bufWe p.len] else if p.bufWe then [.bufWrite p.bufWaddr p.bufWdata] else []) := by
  cases h1 : p.start <;> cases h2 : p.bufWe <;> simp [decodeRows, decodeCmd, cmdWord, cmdPorts, h1, h2]

/-- A cycle with `rst`. -/
theorem cycle_reset {s : State} (h : (portsNow s).rst = true) :
    cycle s = .next (applyReset (sampleRead (portsNow s).bufRaddr (popInputs s))) := by
  simp [cycle, cycleWith, h, exec, execBufRead]

/-- An idle cycle without `rst`: the command runs. -/
theorem cycle_idle {s : State} (h : (portsNow s).rst = false) (hb : s.busy = false) :
    cycle s = execAll (decodeRows (.command (cmdWord (portsNow s)) (cmdPorts (portsNow s)))) (clearDone (popInputs s)) := by
  unfold cycle cycleWith
  rw [h, hb, decodeRows_cmdWord]
  cases (portsNow s).start <;> cases (portsNow s).bufWe <;>
    simp [exec, execBufRead, execDecode, execBufWrite]

/-- A busy cycle without `rst`: the commands have no effect and the decode goes on. -/
theorem cycle_busy {s : State} (h : (portsNow s).rst = false) (hb : s.busy = true) :
    cycle s = progress (sampleRead (portsNow s).bufRaddr (clearDone (popInputs s))) := by
  unfold cycle cycleWith
  rw [h, hb, decodeRows_cmdWord]
  cases (portsNow s).start <;> cases (portsNow s).bufWe <;>
    simp [exec, execBufRead, execDecode, execBufWrite, writePort, hb]

end Sys2Proof.Machine
end

