-- ==== Sys2Proof/Laws/Rows.lean ====
section
/-! SUPPORT. The rows a selector word selects, as functions of its fields: what each does on a datagram that is long enough, and on
one that is not. -/

namespace Sys2Proof.Machine

theorem variantOf_subnet {f : SelFields} (h : f.addressFormat = 0#2) : variantOf f = .subnet := by simp [variantOf, h]

theorem variantOf_group {f : SelFields} (h : f.addressFormat = 1#2) : variantOf f = .group := by simp [variantOf, h]

theorem variantOf_subnetNode {f : SelFields} (h : f.addressFormat = 2#2) (m : f.modeFlag = true) :
    variantOf f = .subnetNode := by simp [variantOf, h, m]

theorem variantOf_subnetNodeGroup {f : SelFields} (h : f.addressFormat = 2#2) (m : f.modeFlag = false) :
    variantOf f = .subnetNodeGroup := by simp [variantOf, h, m]

theorem variantOf_neuronId {f : SelFields} (h : f.addressFormat = 3#2) : variantOf f = .neuronId := by simp [variantOf, h]

/-- The destination registers the selected layout writes (41_lon_header.md R132 to R137). -/
def destinationOf (f : SelFields) (s : State) : Destination :=
  match variantOf f with
  | .subnet => { unpopulated .subnet with dstSubnet := hdrByte s 4 }
  | .group => { unpopulated .group with dstGroup := hdrByte s 4 }
  | .subnetNode => { unpopulated .subnetNode with dstSubnet := hdrByte s 4, dstNode := nodeField (hdrByte s 5) }
  | .subnetNodeGroup => { unpopulated .subnetNodeGroup with
      dstSubnet := hdrByte s 4, dstNode := nodeField (hdrByte s 5), group := hdrByte s 6, groupMember := hdrByte s 7 }
  | .neuronId => { unpopulated .neuronId with dstSubnet := hdrByte s 4, neuronId := memRead s 25 6 }

@[simp] theorem destinationOf_variant (f : SelFields) (s : State) : (destinationOf f s).variant = variantOf f := by
  unfold destinationOf
  cases variantOf f <;> rfl

/-- The address layout row runs its length check and writes its destination. -/
theorem exec_addressRow (f : SelFields) (s : State) :
    exec (addressRow f) s = withHeader (variantOf f) f.domainLengthCode (writeDestination (destinationOf f s)) s := by
  rcases two_bit_cases f.addressFormat with h | h | h | h
  · simp [addressRow, h, variantOf_subnet h, destinationOf, exec, execAf0Subnet]
  · simp [addressRow, h, variantOf_group h, destinationOf, exec, execAf1Group]
  · cases m : f.modeFlag
    · simp [addressRow, h, m, variantOf_subnetNodeGroup h m, destinationOf, exec, execAf2SubnetNodeGroup]
    · simp [addressRow, h, m, variantOf_subnetNode h m, destinationOf, exec, execAf2SubnetNode]
  · simp [addressRow, h, variantOf_neuronId h, destinationOf, exec, execAf3NeuronId]

/-- The domain length row runs the same check and writes the domain. -/
theorem exec_domainRow (f : SelFields) (s : State) :
    exec (domainRow f) s =
      withHeader (variantOf f) f.domainLengthCode (writeDomain (variantOf f) (domainBytes f.domainLengthCode)) s := by
  rcases two_bit_cases f.domainLengthCode with h | h | h | h <;>
    simp [domainRow, h, domainBytes, exec, execDom0, execDom1, execDom3, execDom6]

/-- The pdu format row runs the same check and writes its code. -/
theorem exec_pduRow (f : SelFields) (s : State) :
    exec (pduRow f) s = withHeader (variantOf f) f.domainLengthCode (writePdufmt f.pduFormat) s := by
  rcases two_bit_cases f.pduFormat with h | h | h | h <;>
    simp [pduRow, h, exec, execPduTpdu, execPduSpdu, execPduAuthpdu, execPduApdu]

/-- The three rows of a selector word on a datagram that is long enough. -/
theorem execAll_rows_fit {sel : SelWord} {s : State}
    (h : 20 + headerNeed s.params (variantOf (unpackSel sel)) (unpackSel sel).domainLengthCode ≤ s.n.toNat) :
    execAll (decodeRows (.selector sel)) s =
      .next (writePdufmt (unpackSel sel).pduFormat
        (writeDomain (variantOf (unpackSel sel)) (domainBytes (unpackSel sel).domainLengthCode)
          (writeDestination (destinationOf (unpackSel sel) s) s))) := by
  have step1 : exec (addressRow (unpackSel sel)) s = .next (writeDestination (destinationOf (unpackSel sel) s) s) := by
    rw [exec_addressRow, withHeader_fits _ h]
  have step2 : ∀ t : State, t.params = s.params → t.n = s.n → exec (domainRow (unpackSel sel)) t =
      .next (writeDomain (variantOf (unpackSel sel)) (domainBytes (unpackSel sel).domainLengthCode) t) := fun t hp hn => by
    rw [exec_domainRow, withHeader_fits _ (by rw [hp, hn]; exact h)]
  have step3 : ∀ t : State, t.params = s.params → t.n = s.n → exec (pduRow (unpackSel sel)) t =
      .next (writePdufmt (unpackSel sel).pduFormat t) := fun t hp hn => by
    rw [exec_pduRow, withHeader_fits _ (by rw [hp, hn]; exact h)]
  simp only [decodeRows, decodeSel, execAll_cons, step1, andThen_next]
  rw [step2, andThen_next, execAll_cons, step3, andThen_next, execAll_nil] <;> rfl

/-- Any row of a selector word on a datagram that is too short takes the error. -/
theorem exec_row_short {sel : SelWord} {s : State} {i : Instr} (hi : i ∈ decodeRows (.selector sel))
    (h : s.n.toNat < 20 + headerNeed s.params (variantOf (unpackSel sel)) (unpackSel sel).domainLengthCode) :
    exec i s = .next (takeError (if s.n.toNat < 20 then .truncatedEnvelope else .truncatedHeader) s) := by
  simp only [decodeRows, decodeSel, List.mem_cons, List.not_mem_nil, or_false] at hi
  rcases hi with rfl | rfl | rfl
  · rw [exec_addressRow, withHeader_short _ h]
  · rw [exec_domainRow, withHeader_short _ h]
  · rw [exec_pduRow, withHeader_short _ h]

/-! ### The completing edge -/

/-- The result registers of a successful decode, in one piece, as the rows and the common writes give them. -/
def decodedResults (f : SelFields) (s : State) : Results where
  envLength := memRead s 0 2
  envVersion := memRead s 2 1
  envType := memRead s 3 1
  envExthdr := memRead s 4 1
  envFlags := memRead s 5 1
  envVendor := memRead s 6 2
  envSession := memRead s 8 4
  envSequence := memRead s 12 4
  envTimestamp := memRead s 16 4
  hdrPriority := (hdrByte s 0).getLsbD 7
  hdrAltpath := (hdrByte s 0).getLsbD 6
  hdrBacklog := (hdrByte s 0).extractLsb' 0 6
  hdrVersion := f.version
  hdrPdufmt := f.pduFormat
  hdrAddrfmt := f.addressFormat
  hdrDomlenCode := f.domainLengthCode
  srcSubnet := hdrByte s 2
  srcNode := f.srcNode
  srcMode := f.modeFlag
  addrVariant := variantCode (variantOf f)
  dstSubnet := (destinationOf f s).dstSubnet
  dstNode := (destinationOf f s).dstNode
  dstGroup := (destinationOf f s).dstGroup
  group := (destinationOf f s).group
  groupMember := (destinationOf f s).groupMember
  neuronId := (destinationOf f s).neuronId
  domainLen := BitVec.ofNat 3 (domainBytes f.domainLengthCode)
  domainOff := BitVec.ofNat 5 (domainOffset s.params (variantOf f))
  domain := (memRead s (20 + domainOffset s.params (variantOf f)) (domainBytes f.domainLengthCode)).setWidth 48
  payloadOff := BitVec.ofNat 16 (20 + domainOffset s.params (variantOf f) + domainBytes f.domainLengthCode)
  payloadLen := s.n - BitVec.ofNat 16 (20 + domainOffset s.params (variantOf f) + domainBytes f.domainLengthCode)

theorem destinationOf_congr {s t : State} (f : SelFields) (h : s.buf = t.buf) :
    destinationOf f s = destinationOf f t := by
  simp only [destinationOf, hdrByte, bufByte_congr h, memRead_congr h]

/-- A successful completing edge. -/
theorem completeDecode_fits {s : State} {f : SelFields} (hf : unpackSel (selWord s) = f)
    (h : 20 + headerNeed s.params (variantOf f) f.domainLengthCode ≤ s.n.toNat) :
    completeDecode s = .next { statusCompleted s with res := decodedResults f s } := by
  subst hf
  have hc := (decodeCheck_eq_none s.params s.n.toNat _ _).2 h
  have hr := execAll_rows_fit
    (s := writePayload (unpackSel (selWord s)) (writeHeader (unpackSel (selWord s)) (writeEnvelope s))) h
  simp only [completeDecode, hc, decodeWrites]
  rw [hr, andThen_next,
    destinationOf_congr (s := writePayload _ (writeHeader _ (writeEnvelope s))) (t := s) _ rfl]
  unfold writeDomain
  simp only [memRead_writeDestination, memRead_writePayload, memRead_writeHeader, memRead_writeEnvelope]
  simp only [writePdufmt, writeDestination, destinationOf_variant]
  rfl

/-- A decode whose check fails. -/
theorem completeDecode_short {s : State} {f : SelFields} (hf : unpackSel (selWord s) = f)
    (h : s.n.toNat < 20 + headerNeed s.params (variantOf f) f.domainLengthCode) :
    completeDecode s = .next (takeError (if s.n.toNat < 20 then .truncatedEnvelope else .truncatedHeader) s) := by
  subst hf
  simp [completeDecode, (decodeCheck_eq_some _ _ _ _ _).2 ⟨h, rfl⟩]

end Sys2Proof.Machine
end

