-- ==== Sys2Proof/Laws/Layout.lean ====
section
/-! SUPPORT. The layout functions of Machine/Operands.lean and the ones of Safety.lean agree, and the bounds of 41_lon_header.md
R145. -/

namespace Sys2Proof.Safety

open Sys2Proof.Machine

theorem domainBytes_eq_dlen (code : BitVec 2) : domainBytes code = dlen code := by decide +revert

theorem layout_eq_layoutEnds (p : Params) (f : SelFields) :
    (addrEnd (variantOf f), domainOffset p (variantOf f)) =
      layoutEnds p.af3SourceCompat f.addressFormat f.modeFlag := by
  obtain ⟨v, pd, af, code, mode, sn⟩ := f
  simp only [variantOf, layoutEnds, domainOffset]
  rcases two_bit_cases af with rfl | rfl | rfl | rfl <;> cases mode <;> simp [addrEnd, addrLen]

theorem headerNeed_eq_need (p : Params) (f : SelFields) (code : BitVec 2) :
    headerNeed p (variantOf f) code = need p.af3SourceCompat f.addressFormat f.modeFlag code := by
  simp only [headerNeed, need, ← layout_eq_layoutEnds, domainBytes_eq_dlen]

theorem domainOffset_eq_layoutEnds (p : Params) (f : SelFields) :
    domainOffset p (variantOf f) = (layoutEnds p.af3SourceCompat f.addressFormat f.modeFlag).2 := by
  rw [← layout_eq_layoutEnds]

theorem dlen_le_six (code : BitVec 2) : dlen code ≤ 6 := by decide +revert

theorem layoutEnds_le (compat : Bool) (af : BitVec 2) (mode : Bool) :
    5 ≤ (layoutEnds compat af mode).1 ∧ (layoutEnds compat af mode).1 ≤ 11 ∧ (layoutEnds compat af mode).2 ≤ 11 := by
  decide +revert

/-- Every header needs at least its smallest layout. -/
theorem five_le_need (compat : Bool) (af : BitVec 2) (mode : Bool) (code : BitVec 2) : 5 ≤ need compat af mode code := by
  have := layoutEnds_le compat af mode
  simp only [need]; omega

/-- The domain ends within the needed header. -/
theorem domain_end_le_need (compat : Bool) (af : BitVec 2) (mode : Bool) (code : BitVec 2) :
    (layoutEnds compat af mode).2 + dlen code ≤ need compat af mode code := by
  simp only [need]; omega

end Sys2Proof.Safety
end

