-- ==== Sys2Proof/Laws/PerInstr.lean ====
section
/-! SUPPORT. Facts about each instruction as syntax, one lemma per constructor of `Instr`. -/

namespace Sys2Proof.Laws.PatternFits

/-- An instruction's encoding meets the mask and match of its row in the opcode table exactly when the instruction is well formed
(30_encoding.md R71, R72). -/
def Statement (i : Instr) : Prop :=
  match encode i with
  | .selector w => ∃ mask pattern, selPattern i = some (mask, pattern) ∧ (i.wf = true ↔ w &&& mask = pattern)
  | .command c _ => ∃ mask pattern, cmdPattern i = some (mask, pattern) ∧ i.wf = true ∧ c &&& mask = pattern

theorem af0Subnet (f : SelFields) : Statement (.af0Subnet f) := by
  refine ⟨_, _, rfl, ?_⟩
  rw [packSel_and_addressFormat]
  rcases two_bit_cases f.addressFormat with h | h | h | h <;> simp [Instr.wf, h]

theorem af1Group (f : SelFields) : Statement (.af1Group f) := by
  refine ⟨_, _, rfl, ?_⟩
  rw [packSel_and_addressFormat]
  rcases two_bit_cases f.addressFormat with h | h | h | h <;> simp [Instr.wf, h]

theorem af3NeuronId (f : SelFields) : Statement (.af3NeuronId f) := by
  refine ⟨_, _, rfl, ?_⟩
  rw [packSel_and_addressFormat]
  rcases two_bit_cases f.addressFormat with h | h | h | h <;> simp [Instr.wf, h]

theorem af2SubnetNode (f : SelFields) : Statement (.af2SubnetNode f) := by
  refine ⟨_, _, rfl, ?_⟩
  rw [packSel_and_addressFormat_modeFlag]
  rcases two_bit_cases f.addressFormat with h | h | h | h <;> cases m : f.modeFlag <;> simp [Instr.wf, h, m]

theorem af2SubnetNodeGroup (f : SelFields) : Statement (.af2SubnetNodeGroup f) := by
  refine ⟨_, _, rfl, ?_⟩
  rw [packSel_and_addressFormat_modeFlag]
  rcases two_bit_cases f.addressFormat with h | h | h | h <;> cases m : f.modeFlag <;> simp [Instr.wf, h, m]

theorem dom0 (f : SelFields) : Statement (.dom0 f) := by
  refine ⟨_, _, rfl, ?_⟩
  rw [packSel_and_domainLengthCode]
  rcases two_bit_cases f.domainLengthCode with h | h | h | h <;> simp [Instr.wf, h]

theorem dom1 (f : SelFields) : Statement (.dom1 f) := by
  refine ⟨_, _, rfl, ?_⟩
  rw [packSel_and_domainLengthCode]
  rcases two_bit_cases f.domainLengthCode with h | h | h | h <;> simp [Instr.wf, h]

theorem dom3 (f : SelFields) : Statement (.dom3 f) := by
  refine ⟨_, _, rfl, ?_⟩
  rw [packSel_and_domainLengthCode]
  rcases two_bit_cases f.domainLengthCode with h | h | h | h <;> simp [Instr.wf, h]

theorem dom6 (f : SelFields) : Statement (.dom6 f) := by
  refine ⟨_, _, rfl, ?_⟩
  rw [packSel_and_domainLengthCode]
  rcases two_bit_cases f.domainLengthCode with h | h | h | h <;> simp [Instr.wf, h]

theorem pduTpdu (f : SelFields) : Statement (.pduTpdu f) := by
  refine ⟨_, _, rfl, ?_⟩
  rw [packSel_and_pduFormat]
  rcases two_bit_cases f.pduFormat with h | h | h | h <;> simp [Instr.wf, h]

theorem pduSpdu (f : SelFields) : Statement (.pduSpdu f) := by
  refine ⟨_, _, rfl, ?_⟩
  rw [packSel_and_pduFormat]
  rcases two_bit_cases f.pduFormat with h | h | h | h <;> simp [Instr.wf, h]

theorem pduAuthpdu (f : SelFields) : Statement (.pduAuthpdu f) := by
  refine ⟨_, _, rfl, ?_⟩
  rw [packSel_and_pduFormat]
  rcases two_bit_cases f.pduFormat with h | h | h | h <;> simp [Instr.wf, h]

theorem pduApdu (f : SelFields) : Statement (.pduApdu f) := by
  refine ⟨_, _, rfl, ?_⟩
  rw [packSel_and_pduFormat]
  rcases two_bit_cases f.pduFormat with h | h | h | h <;> simp [Instr.wf, h]

theorem decode (we : Bool) (len : Half) : Statement (.decode we len) :=
  ⟨_, _, rfl, rfl, by cases we <;> decide⟩

theorem bufWrite (a : Half) (v : Byte) : Statement (.bufWrite a v) := ⟨_, _, rfl, rfl, by decide⟩

theorem bufRead (a : Half) : Statement (.bufRead a) := ⟨_, _, rfl, rfl, by decide⟩

end Sys2Proof.Laws.PatternFits
end

