-- ==== Sys2Proof/Tests/Slice0.lean ====
section
/-! SUPPORT. Small tests, each on one step or one word, with expected values from 95_test_vectors.md or worked out by hand from
30_encoding.md; the well-formedness smoke tests; and, for every statement with hypotheses, a concrete state that meets them. -/

namespace Sys2Proof.Tests

open Sys2Proof.Machine Sys2Proof.Safety

/-! ### Helpers -/

/-- The envelope E1 of 95_test_vectors.md. -/
def e1 : List Byte :=
  [0x00, 0x25, 0x01, 0x02, 0x00, 0x00, 0x00, 0x00, 0x11, 0x22, 0x33, 0x44, 0x00, 0x00, 0x00, 0x07, 0xDE, 0xAD, 0xBE, 0xEF]

def vH1 : List Byte := e1 ++ [0xC5, 0x31, 0x0A, 0x83, 0x05, 0x42, 0x01, 0x02]
def vH2 : List Byte := e1 ++ [0x00, 0x04, 0x01, 0x02, 0x09]
def vH3 : List Byte := e1 ++ [0x3F, 0x2A, 0x10, 0xFF, 0x03, 0x8C, 0x01, 0x02, 0x03, 0xAA]
def vH4 : List Byte := e1 ++ [0x80, 0x5B, 0x21, 0x05, 0x03, 0x0C, 0x07, 0x02, 0x01, 0x02, 0x03, 0x04, 0x05, 0x06]
def vH5 : List Byte :=
  e1 ++ [0x41, 0xEF, 0x01, 0x81, 0x04, 0x01, 0x02, 0x03, 0x04, 0x05, 0xAB, 0x0A, 0x0B, 0x0C, 0x0D, 0x0E, 0x0F, 0x77]

/-- An idle block of latency 3 whose buffer holds a datagram. -/
def idle (d : List Byte) : State :=
  { State.reset with params := ⟨4096, 3, false⟩, buf := memImage 0 d }

/-- The same block at the completing edge of a decode of `n` bytes. -/
def completing (compat : Bool) (n : Nat) (d : List Byte) : State :=
  { idle d with params := ⟨4096, 3, compat⟩, busy := true, cnt := 1, n := BitVec.ofNat 16 n }

/-- The host drives these ports now. -/
def driving (p : Ports) (s : State) : State := { s with inputs := [p] }

def startPorts (len : Half) : Ports := { Ports.idle with start := true, len := len }
def writePorts (a : Half) (v : Byte) : Ports := { Ports.idle with bufWe := true, bufWaddr := a, bufWdata := v, bufRaddr := a }
def readPorts (a : Half) : Ports := { Ports.idle with bufRaddr := a }

/-- What a function sees of the state after one step. -/
def seen (s : State) (view : State → α) : Option α :=
  match step s with
  | .next t => some (view t)
  | .fault _ => none
  | .refused _ => none

/-! ### Well-formedness: each check refuses an ill-formed term -/

theorem test_wf_af0 : (Instr.af0Subnet ⟨0, 0, 1, 0, false, 0⟩).wf = false := by decide
theorem test_wf_af1 : (Instr.af1Group ⟨0, 0, 0, 0, false, 0⟩).wf = false := by decide
theorem test_wf_af2_format : (Instr.af2SubnetNode ⟨0, 0, 3, 0, true, 0⟩).wf = false := by decide
theorem test_wf_af2_mode : (Instr.af2SubnetNode ⟨0, 0, 2, 0, false, 0⟩).wf = false := by decide
theorem test_wf_af2group_format : (Instr.af2SubnetNodeGroup ⟨0, 0, 0, 0, false, 0⟩).wf = false := by decide
theorem test_wf_af2group_mode : (Instr.af2SubnetNodeGroup ⟨0, 0, 2, 0, true, 0⟩).wf = false := by decide
theorem test_wf_af3 : (Instr.af3NeuronId ⟨0, 0, 2, 0, true, 0⟩).wf = false := by decide
theorem test_wf_dom0 : (Instr.dom0 ⟨0, 0, 0, 1, false, 0⟩).wf = false := by decide
theorem test_wf_dom1 : (Instr.dom1 ⟨0, 0, 0, 2, false, 0⟩).wf = false := by decide
theorem test_wf_dom3 : (Instr.dom3 ⟨0, 0, 0, 3, false, 0⟩).wf = false := by decide
theorem test_wf_dom6 : (Instr.dom6 ⟨0, 0, 0, 0, false, 0⟩).wf = false := by decide
theorem test_wf_tpdu : (Instr.pduTpdu ⟨0, 1, 0, 0, false, 0⟩).wf = false := by decide
theorem test_wf_spdu : (Instr.pduSpdu ⟨0, 2, 0, 0, false, 0⟩).wf = false := by decide
theorem test_wf_authpdu : (Instr.pduAuthpdu ⟨0, 3, 0, 0, false, 0⟩).wf = false := by decide
theorem test_wf_apdu : (Instr.pduApdu ⟨0, 0, 0, 0, false, 0⟩).wf = false := by decide

/-! ### Decoding: one word per constructor, its bits written out from 30_encoding.md R71 and R72
(version, pdu-format, address-format, domain-length-code, mode flag, src-node; then start, buf_we) -/

theorem test_decode_af0 : (decodeSel 0b01_10_00_01_1_0000101#16).address = .af0Subnet ⟨1, 2, 0, 1, true, 5⟩ := by decide
theorem test_decode_af1 : (decodeSel 0b10_01_01_11_0_1111111#16).address = .af1Group ⟨2, 1, 1, 3, false, 127⟩ := by decide
theorem test_decode_af2_set : (decodeSel 0b00_11_10_10_1_1000000#16).address = .af2SubnetNode ⟨0, 3, 2, 2, true, 64⟩ := by
  decide
theorem test_decode_af2_clear :
    (decodeSel 0b11_00_10_00_0_0000001#16).address = .af2SubnetNodeGroup ⟨3, 0, 2, 0, false, 1⟩ := by decide
theorem test_decode_af3 : (decodeSel 0b11_10_11_11_1_0000001#16).address = .af3NeuronId ⟨3, 2, 3, 3, true, 1⟩ := by decide
theorem test_decode_dom0 : (decodeSel 0b01_10_11_00_1_0000101#16).domain = .dom0 ⟨1, 2, 3, 0, true, 5⟩ := by decide
theorem test_decode_dom1 : (decodeSel 0b01_10_11_01_0_0000101#16).domain = .dom1 ⟨1, 2, 3, 1, false, 5⟩ := by decide
theorem test_decode_dom3 : (decodeSel 0b01_10_01_10_1_0000101#16).domain = .dom3 ⟨1, 2, 1, 2, true, 5⟩ := by decide
theorem test_decode_dom6 : (decodeSel 0b01_10_10_11_1_0000101#16).domain = .dom6 ⟨1, 2, 2, 3, true, 5⟩ := by decide
theorem test_decode_tpdu : (decodeSel 0b11_00_11_01_1_0000101#16).pdu = .pduTpdu ⟨3, 0, 3, 1, true, 5⟩ := by decide
theorem test_decode_spdu : (decodeSel 0b10_01_11_01_1_0000101#16).pdu = .pduSpdu ⟨2, 1, 3, 1, true, 5⟩ := by decide
theorem test_decode_authpdu : (decodeSel 0b01_10_11_01_1_0000101#16).pdu = .pduAuthpdu ⟨1, 2, 3, 1, true, 5⟩ := by decide
theorem test_decode_apdu : (decodeSel 0b00_11_11_01_1_0000101#16).pdu = .pduApdu ⟨0, 3, 3, 1, true, 5⟩ := by decide
theorem test_decode_start : decodeCmd 0b10#2 ⟨28, 1, 2, 3⟩ = [.bufRead 3, .decode false 28] := by decide
theorem test_decode_start_we : decodeCmd 0b11#2 ⟨28, 1, 2, 3⟩ = [.bufRead 3, .decode true 28] := by decide
theorem test_decode_we : decodeCmd 0b01#2 ⟨28, 1, 2, 3⟩ = [.bufRead 3, .bufWrite 1 2] := by decide
theorem test_decode_none : decodeCmd 0b00#2 ⟨28, 1, 2, 3⟩ = [.bufRead 3] := by decide
/-- V-H1 as bytes: `H[1] = 31`, `H[3] = 83`. -/
theorem test_datagram_vH1 : decodeDatagram vH1 =
    .ok ⟨.af0Subnet ⟨0, 3, 0, 1, true, 3⟩, .dom1 ⟨0, 3, 0, 1, true, 3⟩, .pduApdu ⟨0, 3, 0, 1, true, 3⟩⟩ := by decide
/-- V-E4 and V-H4s: 19 bytes hold no envelope, 23 no selector. -/
theorem test_datagram_short : decodeDatagram (vH4.take 19) = .error .truncatedEnvelope ∧
    decodeDatagram (vH4.take 23) = .error .truncatedHeader := by decide
/-- The bare match words of the opcode table. -/
theorem test_table_words :
    decodeTableWord 16 0x0400 = some (.af1Group ⟨0, 0, 1, 0, false, 0⟩) ∧
    decodeTableWord 16 0x0200 = some (.dom3 ⟨0, 0, 0, 2, false, 0⟩) ∧
    decodeTableWord 16 0x3000 = some (.pduApdu ⟨0, 3, 0, 0, false, 0⟩) ∧
    decodeTableWord 8 2 = some (.decode false 0) ∧ decodeTableWord 8 1 = some (.bufWrite 0 0) ∧
    decodeTableWord 8 0 = some (.bufRead 0) ∧ decodeTableWord 8 4 = none := by decide

/-! ### One step: the vectors of 95_test_vectors.md -/

theorem test_vH1_address : seen (completing false 28 vH1) (fun t => (t.valid, t.err, t.res.addrVariant, t.res.dstSubnet)) =
    some (true, 0, 0, 5) := by decide
theorem test_vH1_domain : seen (completing false 28 vH1) (fun t => (t.res.domainLen, t.res.domain, t.res.payloadOff,
    t.res.payloadLen)) = some (1, 0x42, 26, 2) := by decide
theorem test_vH1_header : seen (completing false 28 vH1) (fun t => (t.res.hdrPriority, t.res.hdrAltpath, t.res.hdrBacklog,
    t.res.hdrPdufmt)) = some (true, true, 5, 3) := by decide
theorem test_vE1_envelope : seen (completing false 28 vH1) (fun t => (t.res.envLength, t.res.envSession,
    t.res.envTimestamp)) = some (0x0025, 0x11223344, 0xDEADBEEF) := by decide
theorem test_vH2_group : seen (completing false 25 vH2) (fun t => (t.res.addrVariant, t.res.dstGroup, t.res.dstSubnet,
    t.res.hdrPdufmt)) = some (1, 9, 0, 0) := by decide
theorem test_vH2_domain : seen (completing false 25 vH2) (fun t => (t.res.domainLen, t.res.domain, t.res.payloadOff,
    t.res.payloadLen)) = some (0, 0, 25, 0) := by decide
theorem test_vH3_address : seen (completing false 30 vH3) (fun t => (t.res.addrVariant, t.res.dstSubnet, t.res.dstNode,
    t.res.hdrPdufmt)) = some (2, 3, 12, 2) := by decide
theorem test_vH3_domain : seen (completing false 30 vH3) (fun t => (t.res.domainLen, t.res.domain, t.res.srcNode)) =
    some (3, 0x010203, 127) := by decide
theorem test_vH4_address : seen (completing false 34 vH4) (fun t => (t.res.addrVariant, t.res.dstNode, t.res.group,
    t.res.groupMember)) = some (3, 12, 7, 2) := by decide
theorem test_vH4_domain : seen (completing false 34 vH4) (fun t => (t.res.domainOff, t.res.domain, t.res.hdrPdufmt)) =
    some (8, 0x010203040506, 1) := by decide
theorem test_vH5_corrected : seen (completing false 38 vH5) (fun t => (t.res.neuronId, t.res.domainOff, t.res.domain,
    t.res.payloadLen)) = some (0x0102030405AB, 11, 0x0A0B0C0D0E0F, 1) := by decide
theorem test_vH6_literal : seen (completing true 38 vH5) (fun t => (t.res.neuronId, t.res.domainOff, t.res.domain,
    t.res.payloadOff)) = some (0x0102030405AB, 5, 0x0102030405AB, 31) := by decide
/-- V-H4t: one byte short. -/
theorem test_vH4t_fails : seen (completing false 33 vH4) (fun t => (t.valid, t.err, t.done, decide (t.res = Results.zero))) =
    some (false, 2, true, true) := by decide
/-- V-X1: the envelope's error comes first. -/
theorem test_vX1_fails : seen (completing false 10 vH1) (fun t => (t.valid, t.err)) = some (false, 1) := by decide
/-- T-B: `DECODE 28` on a block of latency 3. -/
theorem test_decode_accepted : seen (driving (startPorts 28) (idle vH1)) (fun t => (t.busy, t.cnt, t.n)) =
    some (true, 3, 28) := by decide
/-- V-H1c: `len = 5000` is clamped. -/
theorem test_decode_clamped : seen (driving (startPorts 5000) (idle vH1)) (fun t => t.n) = some 4096 := by decide
/-- T-E3: the old byte in the cycle of the write, the new one after it. -/
theorem test_write_then_read : seen (driving (writePorts 21 0x99) (idle vH1)) (fun t => (t.bufRdata, readPort t 21)) =
    some (0x31, 0x99) := by decide
/-- T-E1: a write at `MAX_LEN` does nothing and a read there gives 0. -/
theorem test_write_outside : seen (driving (writePorts 4096 0x55) (idle vH1)) (fun t =>
    (t.bufRdata, readPort t 4096, decide (t.buf = (idle vH1).buf))) = some (0, 0, true) := by decide
/-- T-E6: a read while `BUSY`. -/
theorem test_read_busy : seen (driving (readPorts 20) { completing false 28 vH1 with cnt := 3 }) (fun t =>
    (t.bufRdata, t.cnt, t.busy)) = some (0xC5, 2, true) := by decide
/-- T-D: reset during a decode. -/
theorem test_reset_aborts : seen (driving { Ports.idle with rst := true } (completing false 28 vH1)) (fun t =>
    (t.busy, t.done, t.valid, bufByte t 20)) = some (false, false, false, 0xC5) := by decide

/-! ### Every hypothesis can be met: a witness for each statement that has one -/

theorem witness_ResetOverridesEverything :
    (portsNow (driving { startPorts 28 with rst := true, bufWe := true } (completing false 28 vH1))).rst = true := by decide

theorem witness_InvariantKeptByEveryStep :
    Inv (completing false 28 vH1) ∧ ∃ t, step (completing false 28 vH1) = .next t := by
  refine ⟨⟨?_, ?_, ?_, ?_, ?_, ?_, ?_, ?_, ?_, ?_, ?_, ?_⟩, _, rfl⟩ <;> first | decide | (intro h; exact absurd h (by decide))

theorem witness_EncodeThenDecodeFindsRow :
    (Instr.af2SubnetNode ⟨0, 2, 2, 2, true, 127⟩).wf = true ∧ (Instr.decode true 28).wf = true := by decide

theorem witness_DecodedRowsEncodeBack :
    Instr.dom6 ⟨3, 2, 3, 3, true, 1⟩ ∈ decodeRows (.selector 0xEF81#16) := by decide

theorem witness_IdleStepRunsCommand_start :
    (portsNow (driving (startPorts 28) (idle vH1))).rst = false ∧ (driving (startPorts 28) (idle vH1)).busy = false ∧
    (portsNow (driving (startPorts 28) (idle vH1))).start = true := by decide

theorem witness_IdleStepRunsCommand_write :
    (portsNow (driving (writePorts 21 9) (idle vH1))).rst = false ∧ (driving (writePorts 21 9) (idle vH1)).busy = false ∧
    (portsNow (driving (writePorts 21 9) (idle vH1))).start = false ∧
    (portsNow (driving (writePorts 21 9) (idle vH1))).bufWe = true := by decide

theorem witness_IdleStepRunsCommand_read :
    (portsNow (driving (readPorts 21) (idle vH1))).rst = false ∧ (driving (readPorts 21) (idle vH1)).busy = false ∧
    (portsNow (driving (readPorts 21) (idle vH1))).start = false ∧
    (portsNow (driving (readPorts 21) (idle vH1))).bufWe = false := by decide

/-- `N = 26` is the smallest length V-H1 decodes at (V-H1b). -/
theorem witness_CompletingStepRunsSelectedRows :
    Completing (completing false 26 vH1) ∧
    decodeSel (bufByte (completing false 26 vH1) 21 ++ bufByte (completing false 26 vH1) 23) = decodeSel 0x3183#16 ∧
    neededLength (completing false 26 vH1) = (completing false 26 vH1).n.toNat := by decide

theorem witness_SelectedRowsCommute :
    [(decodeSel 0x3183#16).pdu, (decodeSel 0x3183#16).address, (decodeSel 0x3183#16).domain].Perm
      (decodeRows (.selector 0x3183#16)) := by decide

/-- A `DECODE 28` on a block of latency 3, with an ignored `DECODE` and a dropped write meanwhile (T-B). -/
def acceptance : State :=
  { idle vH1 with inputs := [startPorts 28, startPorts 30, writePorts 20 0, Ports.idle, readPorts 26] }

theorem witness_DecodeCompletesAfterLatency :
    acceptance.inputs = startPorts 28 :: ([startPorts 30, writePorts 20 0, Ports.idle] ++ [readPorts 26]) ∧
    [startPorts 30, writePorts 20 0, Ports.idle].length = acceptance.params.decodeLatency ∧
    1 ≤ acceptance.params.decodeLatency ∧ acceptance.busy = false ∧ (startPorts 28).rst = false ∧
    (startPorts 28).start = true ∧ (∀ q ∈ [startPorts 30, writePorts 20 0, Ports.idle], q.rst = false) ∧
    ∀ a, a < min (startPorts 28).len.toNat acceptance.params.maxLen →
      bufByte { acceptance with buf := memImage 0 (vH1 ++ [0xFF]) } a = bufByte acceptance a := by decide

/-- The same acceptance, and both ends of the range of `k`. -/
theorem witness_BusyShowsNoOutcome : acceptance.params.decodeLatency = 3 ∧
    (1 ≤ 1 ∧ 1 ≤ acceptance.params.decodeLatency) ∧ (1 ≤ 3 ∧ 3 ≤ acceptance.params.decodeLatency) := by decide

/-- The same block with latency 1. -/
def acceptanceFast : State :=
  { acceptance with params := ⟨4096, 1, false⟩, inputs := [startPorts 28, Ports.idle] }

theorem witness_OutcomeIndependentOfLatency :
    acceptanceFast = { acceptance with params := acceptanceFast.params, inputs := acceptanceFast.inputs } ∧
    acceptanceFast.params.maxLen = acceptance.params.maxLen ∧
    acceptanceFast.params.af3SourceCompat = acceptance.params.af3SourceCompat ∧
    acceptanceFast.inputs = startPorts 28 :: ([Ports.idle] ++ []) ∧
    [Ports.idle].length = acceptanceFast.params.decodeLatency ∧ 1 ≤ acceptanceFast.params.decodeLatency ∧
    ∀ q ∈ [Ports.idle], q.rst = false := by decide

theorem witness_DecodeAcceptedEdge : Accepting (driving (startPorts 28) (idle vH1)) := by decide

theorem witness_DecodeInstruction : (idle vH1).busy = false ∧ (completing false 28 vH1).busy = true := by decide

theorem witness_CommandsIgnoredWhileBusy : (completing false 28 vH1).busy = true ∧
    (startPorts 30).rst = (writePorts 0 9).rst ∧ (startPorts 30).bufRaddr = (writePorts 0 9).bufRaddr ∧
    (let s : State := { completing false 28 vH1 with inputs := [startPorts 30, startPorts 30] }
     Completing s ∧ seen s (fun t => ((portsNow t).rst, (portsNow t).start)) = some (false, true)) := by decide

/-- Each of the three ways a write is dropped. -/
theorem witness_DroppedWrites : (writePorts 20 0).bufWe = true ∧ (completing false 28 vH1).busy = true ∧
    (let p := { writePorts 20 0 with start := true }; p.bufWe = true ∧ p.start = true) ∧
    (let p := { writePorts 20 0 with rst := true }; p.bufWe = true ∧ p.rst = true) := by decide

/-- The last index of `BUF` and the first beyond it. -/
theorem witness_BufWriteEdge :
    (let s := driving (writePorts 4095 9) (idle vH1)
     (portsNow s).rst = false ∧ s.busy = false ∧ (portsNow s).start = false ∧ (portsNow s).bufWe = true ∧
       (portsNow s).bufWaddr.toNat < s.params.maxLen) ∧
    (let s := driving (writePorts 4096 9) (idle vH1)
     (portsNow s).rst = false ∧ s.busy = false ∧ (portsNow s).start = false ∧ (portsNow s).bufWe = true ∧
       s.params.maxLen ≤ (portsNow s).bufWaddr.toNat) := by decide

theorem witness_BufWriteInstruction :
    (idle vH1).busy = false ∧ (4095#16).toNat < (idle vH1).params.maxLen ∧ (completing false 28 vH1).busy = true ∧
    (idle vH1).params.maxLen ≤ (4096#16).toNat := by decide

theorem witness_ReadPortAnswersEveryCycle :
    (let s := driving (writePorts 4095 9) (idle vH1)
     (portsNow s).rst = false ∧ s.busy = false ∧ (portsNow s).start = false ∧ (portsNow s).bufWe = true ∧
       (portsNow s).bufWaddr.toNat < s.params.maxLen) := by decide

theorem witness_CountdownEdge :
    (let s : State := { completing false 28 vH1 with cnt := 2 }
     (portsNow s).rst = false ∧ s.busy = true ∧ 1 < s.cnt) := by decide

/-- A completing edge that succeeds, for the statements about the state after one. -/
theorem witness_completing_success : Completing (completing false 28 vH1) ∧
    ∃ t, step (completing false 28 vH1) = .next t ∧ t.valid = true ∧ t.done = true :=
  ⟨by decide, _, rfl, rfl, rfl⟩

theorem witness_DoneOnlyAfterCompletion : (∃ t, step (completing false 28 vH1) = .next t ∧ t.done = true) ∧
    ∃ t, step { completing false 28 vH1 with cnt := 2 } = .next t ∧ t.done = false :=
  ⟨⟨_, rfl, rfl⟩, _, rfl, rfl⟩

theorem witness_OutcomeHeldBetweenDecodes :
    (let s := driving (writePorts 20 0) (idle vH1)
     (∃ t, step s = .next t) ∧ (portsNow s).rst = false ∧ ¬ Accepting s ∧ ¬ Completing s) :=
  ⟨⟨_, rfl⟩, by decide⟩

theorem witness_TruncatedEnvelopeEntry :
    Completing (completing false 19 vH1) ∧ (completing false 19 vH1).n.toNat = 19 ∧ Completing (completing false 0 vH1) := by
  decide

/-- `N` 20 and 23 fall under the first alternative, 24 and 25 under the second only. -/
theorem witness_TruncatedHeaderEntry :
    Completing (completing false 20 vH1) ∧ (completing false 23 vH1).n.toNat < 24 ∧
    20 ≤ (completing false 25 vH1).n.toNat ∧ (completing false 25 vH1).n.toNat < neededLength (completing false 25 vH1) := by
  decide

/-- One byte short of the needed length, and exactly that length. -/
theorem witness_SuccessExactlyWhenLongEnough :
    Completing (completing false 25 vH1) ∧ Completing (completing false 26 vH1) ∧
    (∃ t, step (completing false 25 vH1) = .next t ∧ t.err = 2#2) ∧
    (∃ t, step (completing false 26 vH1) = .next t ∧ t.valid = true) ∧
    ∃ t, step (completing false 19 vH1) = .next t ∧ t.err = 1#2 :=
  ⟨by decide, by decide, ⟨_, rfl, rfl⟩, ⟨_, rfl, rfl⟩, _, rfl, rfl⟩

theorem witness_ErrorEntryKeepsNoField : Completing (completing false 33 vH4) ∧
    ∃ t, step (completing false 33 vH4) = .next t ∧ t.valid = false :=
  ⟨by decide, _, rfl, rfl⟩

/-- A machine that was never reset may hold the reserved codes (70_reset_and_hazards.md R233). -/
theorem witness_ReservedCodesNeverWritten :
    ∃ t, step { idle vH1 with err := 3#2, res := { Results.zero with addrVariant := 5#3 } } = .next t ∧
      t.err = 3#2 ∧ 4 < t.res.addrVariant.toNat :=
  ⟨_, rfl, by decide, by decide⟩

/-! The length hypotheses of the rows, at the smallest length that decodes and one byte below it (boundary table T1). -/

theorem witness_SubnetLayout :
    25 + dlen 1#2 = (completing false 26 vH1).n.toNat ∧ 20 ≤ (completing false 25 vH1).n.toNat ∧
    (completing false 25 vH1).n.toNat < 25 + dlen 1#2 := by decide
theorem witness_GroupLayout :
    25 + dlen 0#2 = (completing false 25 vH2).n.toNat ∧ 20 ≤ (completing false 24 vH2).n.toNat ∧
    (completing false 24 vH2).n.toNat < 25 + dlen 0#2 := by decide
theorem witness_SubnetNodeLayout :
    26 + dlen 2#2 = (completing false 29 vH3).n.toNat ∧ 20 ≤ (completing false 28 vH3).n.toNat ∧
    (completing false 28 vH3).n.toNat < 26 + dlen 2#2 := by decide
theorem witness_SubnetNodeGroupLayout :
    28 + dlen 3#2 = (completing false 34 vH4).n.toNat ∧ 20 ≤ (completing false 33 vH4).n.toNat ∧
    (completing false 33 vH4).n.toNat < 28 + dlen 3#2 := by decide
theorem witness_NeuronIdLayout :
    (if (completing false 37 vH5).params.af3SourceCompat then 31 else 31 + dlen 3#2) = (completing false 37 vH5).n.toNat ∧
    (completing false 36 vH5).n.toNat < (if (completing false 36 vH5).params.af3SourceCompat then 31 else 31 + dlen 3#2) ∧
    (if (completing true 31 vH5).params.af3SourceCompat then 31 else 31 + dlen 3#2) = (completing true 31 vH5).n.toNat ∧
    (completing true 30 vH5).n.toNat < (if (completing true 30 vH5).params.af3SourceCompat then 31 else 31 + dlen 3#2) := by
  decide

/-- The SUBNET layout with each domain code, at its smallest length. -/
theorem witness_DomainRows :
    5 = (layoutEnds (idle vH1).params.af3SourceCompat 0#2 false).2 ∧
    20 + need false 0#2 false 0#2 = (completing false 25 vH1).n.toNat ∧
    20 + need false 0#2 false 1#2 = (completing false 26 vH1).n.toNat ∧
    20 + need false 0#2 false 2#2 = (completing false 28 vH1).n.toNat ∧
    20 + need false 0#2 false 3#2 = (completing false 31 vH1).n.toNat := by decide

theorem witness_PduRows : 20 + need false 3#2 true 3#2 = (completing false 37 vH5).n.toNat := by decide

theorem witness_EveryRowTakesTheSameError :
    Instr.pduApdu ⟨0, 3, 0, 1, true, 3⟩ ∈ decodeRows (.selector 0x3183#16) ∧
    (let s := completing false 25 vH1
     s.n.toNat < 20 + need s.params.af3SourceCompat ((0x3183#16).extractLsb' 10 2) ((0x3183#16).getLsbD 7)
       ((0x3183#16).extractLsb' 8 2)) := by decide

theorem witness_EnvelopeRoundTrip : Completing (completing false 28 vH1) ∧
    ∃ t, step (completing false 28 vH1) = .next t ∧ t.valid = true := ⟨by decide, _, rfl, rfl⟩

theorem witness_HeaderFieldsReported : Completing (completing false 30 vH3) ∧
    ∃ t, step (completing false 30 vH3) = .next t ∧ t.valid = true := ⟨by decide, _, rfl, rfl⟩

/-- One vector for each variant. -/
theorem witness_UnpopulatedDestinationIsZero :
    (∃ t, step (completing false 28 vH1) = .next t ∧ t.valid = true ∧ t.res.addrVariant = 0#3) ∧
    (∃ t, step (completing false 25 vH2) = .next t ∧ t.valid = true ∧ t.res.addrVariant = 1#3) ∧
    (∃ t, step (completing false 30 vH3) = .next t ∧ t.valid = true ∧ t.res.addrVariant = 2#3) ∧
    (∃ t, step (completing false 34 vH4) = .next t ∧ t.valid = true ∧ t.res.addrVariant = 3#3) ∧
    (∃ t, step (completing false 38 vH5) = .next t ∧ t.valid = true ∧ t.res.addrVariant = 4#3) :=
  ⟨⟨_, rfl, rfl, by decide⟩, ⟨_, rfl, rfl, by decide⟩, ⟨_, rfl, rfl, by decide⟩, ⟨_, rfl, rfl, by decide⟩, _, rfl, rfl,
    by decide⟩

theorem witness_PayloadIsTheRest : Completing (completing true 38 vH5) ∧
    ∃ t, step (completing true 38 vH5) = .next t ∧ t.valid = true := ⟨by decide, _, rfl, rfl⟩

/-- A buffer that differs beyond `N`. -/
theorem witness_DecodeReadsOnlyItsDatagram : Completing (completing false 26 vH1) ∧
    ∀ a, a < min (completing false 26 vH1).n.toNat 37 →
      bufByte { completing false 26 vH1 with buf := memImage 0 (vH1.take 26 ++ [0xFF, 0xEE]) } a =
        bufByte (completing false 26 vH1) a := by decide

/-- A buffer with another declared length. -/
theorem witness_DeclaredLengthNotChecked : Completing (completing false 26 vH1) ∧
    ∀ a, 2 ≤ a →
      bufByte { completing false 26 vH1 with buf := memStore (memImage 0 vH1) 0 0xFF } a =
        bufByte (completing false 26 vH1) a := by
  refine ⟨by decide, fun a ha => ?_⟩
  have h : memLookup (memStore (memImage 0 vH1) 0 0xFF) a = memLookup (memImage 0 vH1) a := by
    show (if a = 0 then _ else _) = (if a = 0 then _ else _)
    rw [if_neg (by omega), if_neg (by omega)]
  exact congrArg (fun o => Option.getD o (Config.powerUpByte a)) h

theorem witness_CompatChangesOnlyDomainAndPayload :
    (∃ r, decodePacket { (idle vH5).params with af3SourceCompat := false } 38 (bufByte (idle vH5)) = .ok r ∧ r.hdrAddrfmt = 3#2) ∧
    (∃ r, decodePacket { (idle vH5).params with af3SourceCompat := true } 38 (bufByte (idle vH5)) = .ok r) ∧
    (∃ r, decodePacket { (idle vH4).params with af3SourceCompat := true } 34 (bufByte (idle vH4)) = .ok r ∧ r.hdrAddrfmt ≠ 3#2) :=
  ⟨⟨_, rfl, by decide⟩, ⟨_, rfl⟩, _, rfl, by decide⟩

/-- A datagram outside address-format 3, and V-H5 (`DOMAIN_LEN` 6) at both ends of each range of `N`. -/
theorem witness_CompatSettingAtCompletion :
    (Completing (completing false 28 vH1) ∧ (bufByte (completing false 28 vH1) 21).extractLsb' 2 2 ≠ 3#2) ∧
    (∀ n ∈ [0, 30, 31, 36, 37, 38], Completing (completing false n vH5) ∧ (completing false n vH5).n.toNat = n ∧
      (bufByte (completing false n vH5) 21).extractLsb' 2 2 = 3#2) ∧
    dlen ((bufByte (completing false 37 vH5) 21).extractLsb' 0 2) = 6 := by decide

theorem witness_BufferChangesOnlyByWrite :
    ∃ t, step (driving (writePorts 20 0) (idle vH1)) = .next t ∧ bufByte t 20 ≠ bufByte (driving (writePorts 20 0) (idle vH1)) 20 :=
  ⟨_, rfl, by decide⟩

theorem witness_ParametersNeverChange : ∃ t, step (driving (startPorts 28) (idle vH1)) = .next t := ⟨_, rfl⟩

/-- A completing step from `withFetchWord` runs the placed selector, and a placed command word is accepted. -/
theorem test_withFetchWord_selector :
    seen (State.reset.withFetchWord 16 0x2A85) (fun t => (t.valid, t.res.addrVariant, t.res.domainLen, t.res.hdrPdufmt)) =
      some (true, 2, 3, 2) := by decide
theorem test_withFetchWord_decode : seen (State.reset.withFetchWord 8 2) (fun t => (t.busy, t.n)) = some (true, 0) := by decide

end Sys2Proof.Tests
end

/-! Proofs of the statements of 10_state.md: what `State.reset` holds (O2), that the parameters are constant (O50), and that the
order of a datagram's three rows is not observable (O12). -/

namespace Sys2Proof.Machine

/-! ### The state after reset -/

/-- Settles O2. Each register by its definition; the latency is a successor, whatever the free value is. -/
theorem resetStateRegisters : Obligations.ResetStateRegisters :=
  ⟨rfl, rfl, rfl, rfl, rfl, rfl, rfl, rfl, rfl, Nat.succ_pos Config.decodeLatencyLessOne⟩

/-! ### Sequencing -/

/-- A sequence answers a next state exactly when both of its parts do. -/
theorem andThen_eq_next {o : Host.Outcome State Fault Refusal} {g : State → Host.Outcome State Fault Refusal} {t : State} :
    andThen o g = .next t ↔ ∃ u, o = .next u ∧ g u = .next t := by
  cases o <;> simp [andThen]

/-! ### What keeps the parameters -/

@[simp] theorem writePort_params (a : Half) (v : Byte) (s : State) : (writePort a v s).params = s.params := by
  obtain ⟨_, _, h⟩ | ⟨_, h⟩ := writePort_cases a v s
  · rw [h, memWrite_params]
  · rw [h]

/-- Either outcome of a row's length check keeps the parameters if its writes do. -/
theorem withHeader_keeps_params {v : Variant} {code : BitVec 2} {write : State → State} {s t : State}
    (hw : ∀ u, (write u).params = u.params) (h : withHeader v code write s = .next t) : t.params = s.params := by
  obtain hs | hs := Nat.lt_or_ge s.n.toNat (20 + headerNeed s.params v code)
  · rw [withHeader_short write hs] at h
    cases h
    exact takeError_params _ s
  · rw [withHeader_fits write hs] at h
    cases h
    exact hw s

/-- No instruction changes the parameters: the selector rows write registers of their group, the commands their own. -/
theorem exec_keeps_params {i : Instr} {s t : State} (h : exec i s = .next t) : t.params = s.params := by
  cases i with
  | af0Subnet | af1Group | af2SubnetNode | af2SubnetNodeGroup | af3NeuronId =>
    exact withHeader_keeps_params (writeDestination_params _) h
  | dom0 | dom1 | dom3 | dom6 => exact withHeader_keeps_params (writeDomain_params _ _) h
  | pduTpdu | pduSpdu | pduAuthpdu | pduApdu => exact withHeader_keeps_params (writePdufmt_params _) h
  | decode we len =>
    cases h
    split
    · rfl
    · exact acceptDecode_params len s
  | bufWrite a v =>
    cases h
    exact writePort_params a v s
  | bufRead a =>
    cases h
    exact sampleRead_params a s

theorem execAll_keeps_params {is : List Instr} {s t : State} (h : execAll is s = .next t) : t.params = s.params := by
  induction is generalizing s with
  | nil =>
    cases h
    rfl
  | cons i is ih =>
    obtain ⟨u, hi, his⟩ := andThen_eq_next.1 h
    exact (ih his).trans (exec_keeps_params hi)

/-- The completing edge keeps the parameters, whether the datagram is long enough or not. -/
theorem completeDecode_keeps_params {s t : State} (h : completeDecode s = .next t) : t.params = s.params := by
  obtain hs | hs := Nat.lt_or_ge s.n.toNat
    (20 + headerNeed s.params (variantOf (unpackSel (selWord s))) (unpackSel (selWord s)).domainLengthCode)
  · rw [completeDecode_short rfl hs] at h
    cases h
    exact takeError_params _ s
  · rw [completeDecode_fits rfl hs] at h
    cases h
    rfl

theorem progress_keeps_params {s t : State} (h : progress s = .next t) : t.params = s.params := by
  unfold progress at h
  split at h
  · exact completeDecode_keeps_params h
  · cases h
    exact countDown_params s

/-- A cycle resets, runs the command of an idle block, or goes on with a decode; each keeps the parameters. -/
theorem cycle_keeps_params {s t : State} (h : cycle s = .next t) : t.params = s.params := by
  cases hr : (portsNow s).rst with
  | true =>
    rw [cycle_reset hr] at h
    cases h
    simp
  | false =>
    cases hb : s.busy with
    | true =>
      rw [cycle_busy hr hb] at h
      simpa using progress_keeps_params h
    | false =>
      rw [cycle_idle hr hb] at h
      simpa using execAll_keeps_params h

/-- Settles O50. -/
theorem parametersNeverChange : Obligations.ParametersNeverChange :=
  fun _ _ h => cycle_keeps_params h

/-! ### Instructions that commute -/

/-- Running two instructions one after the other gives the same in both orders, from every state. -/
def InstrsCommute (i j : Instr) : Prop :=
  ∀ s : State, andThen (exec i s) (exec j) = andThen (exec j s) (exec i)

theorem instrsCommute_self (i : Instr) : InstrsCommute i i := fun _ => rfl

theorem instrsCommute_symm : Std.Symm InstrsCommute := ⟨fun _ _ h s => (h s).symm⟩

/-- A list of instructions as a left fold over the outcomes. -/
theorem andThen_execAll (is : List Instr) (o : Host.Outcome State Fault Refusal) :
    andThen o (execAll is) = is.foldl (fun o i => andThen o (exec i)) o := by
  induction is generalizing o with
  | nil => cases o <;> rfl
  | cons i is ih =>
    rw [List.foldl_cons, ← ih]
    cases o <;> rfl

/-- Instructions that commute two by two run alike in every order. -/
theorem execAll_perm {is js : List Instr} (hp : is.Perm js) (hc : js.Pairwise InstrsCommute) (s : State) :
    execAll is s = execAll js s := by
  have symm := instrsCommute_symm
  have comm : ∀ i ∈ js, ∀ j ∈ js, InstrsCommute i j := fun i hi j hj =>
    hc.forall_of_forall (fun k _ => instrsCommute_self k) hi hj
  have fold := hp.symm.foldl_eq' (f := fun o i => andThen o (exec i)) (fun i hi j hj o => by
    cases o with
    | next u => exact comm i hi j hj u
    | fault _ | refused _ => rfl) (.next s)
  rw [← andThen_execAll, ← andThen_execAll] at fold
  exact fold.symm

/-! ### The three rows of a selector word -/

/-- A write that leaves what the length check reads, the parameters and `N`, as it was. -/
def KeepsCheck (write : State → State) : Prop :=
  ∀ s, (write s).params = s.params ∧ (write s).n = s.n

theorem keepsCheck_address (f : SelFields) : KeepsCheck (fun s => writeDestination (destinationOf f s) s) :=
  fun _ => ⟨rfl, rfl⟩

theorem keepsCheck_domain (v : Variant) (k : Nat) : KeepsCheck (writeDomain v k) := fun _ => ⟨rfl, rfl⟩

theorem keepsCheck_pdu (code : BitVec 2) : KeepsCheck (writePdufmt code) := fun _ => ⟨rfl, rfl⟩

/-- Two rows with the same length check commute if their writes do: on a short datagram both take the same error, and
after the first has taken it the second takes it again. -/
theorem withHeader_commute {v : Variant} {code : BitVec 2} {w₁ w₂ : State → State}
    (h₁ : KeepsCheck w₁) (h₂ : KeepsCheck w₂) (comm : ∀ s, w₂ (w₁ s) = w₁ (w₂ s)) (s : State) :
    andThen (withHeader v code w₁ s) (withHeader v code w₂) = andThen (withHeader v code w₂ s) (withHeader v code w₁) := by
  obtain hs | hs := Nat.lt_or_ge s.n.toNat (20 + headerNeed s.params v code)
  · rw [withHeader_short w₁ hs, withHeader_short w₂ hs, andThen_next, andThen_next,
      withHeader_short w₁ (by simpa using hs), withHeader_short w₂ (by simpa using hs)]
  · have fits : ∀ {w}, KeepsCheck w → 20 + headerNeed (w s).params v code ≤ (w s).n.toNat := fun hw => by
      rw [(hw s).1, (hw s).2]
      exact hs
    rw [withHeader_fits w₁ hs, withHeader_fits w₂ hs, andThen_next, andThen_next,
      withHeader_fits w₁ (fits h₂), withHeader_fits w₂ (fits h₁), comm]

theorem addressRow_commute_domainRow (f : SelFields) : InstrsCommute (addressRow f) (domainRow f) := fun s => by
  rw [funext (exec_addressRow f), funext (exec_domainRow f)]
  refine withHeader_commute (keepsCheck_address f) (keepsCheck_domain _ _) (fun u => ?_) s
  simp only [writeDomain, memRead_writeDestination]
  rw [destinationOf_congr (t := u) f rfl]
  rfl

theorem addressRow_commute_pduRow (f : SelFields) : InstrsCommute (addressRow f) (pduRow f) := fun s => by
  rw [funext (exec_addressRow f), funext (exec_pduRow f)]
  refine withHeader_commute (keepsCheck_address f) (keepsCheck_pdu _) (fun u => ?_) s
  rw [destinationOf_congr (s := writePdufmt f.pduFormat u) (t := u) f rfl]
  rfl

theorem domainRow_commute_pduRow (f : SelFields) : InstrsCommute (domainRow f) (pduRow f) := fun s => by
  rw [funext (exec_domainRow f), funext (exec_pduRow f)]
  refine withHeader_commute (keepsCheck_domain _ _) (keepsCheck_pdu _) (fun u => ?_) s
  simp only [writeDomain, memRead_writePdufmt]
  rfl

/-- The selected rows commute two by two: they read `BUF` and the parameters, which none of them writes, and write disjoint
registers. -/
theorem decodeRows_selector_pairwise_commute (sel : SelWord) : (decodeRows (.selector sel)).Pairwise InstrsCommute := by
  simp [decodeRows, decodeSel, addressRow_commute_domainRow, addressRow_commute_pduRow, domainRow_commute_pduRow]

/-- Settles O12. -/
theorem selectedRowsCommute : Obligations.SelectedRowsCommute :=
  fun sel s _ hp => execAll_perm hp (decodeRows_selector_pairwise_commute sel) s

end Sys2Proof.Machine

/-! Proofs of the statements of 20_memory.md: `BUF` changes only by an accepted write (O49), the read port answers in every cycle
(O25), and a decode reads nothing at or above `min(N, 37)` (O46). -/

namespace Sys2Proof.Machine

open Sys2Proof.Safety

/-! ### The commands as equations -/

@[simp] theorem exec_bufRead (a : Half) (s : State) : exec (.bufRead a) s = .next (sampleRead a s) := rfl

@[simp] theorem exec_bufWrite (a : Half) (v : Byte) (s : State) : exec (.bufWrite a v) s = .next (writePort a v s) := rfl

theorem exec_decode_idle (we : Bool) (len : Half) {s : State} (hb : s.busy = false) :
    exec (.decode we len) s = .next (acceptDecode len s) := by
  simp [exec, execDecode, hb]

/-! ### The three commands of an idle cycle -/

theorem cycle_idle_start {s : State} (hr : (portsNow s).rst = false) (hb : s.busy = false)
    (hs : (portsNow s).start = true) :
    cycle s = .next (acceptDecode (portsNow s).len (sampleRead (portsNow s).bufRaddr (clearDone (popInputs s)))) := by
  have idle : (sampleRead (portsNow s).bufRaddr (clearDone (popInputs s))).busy = false := by simpa using hb
  simp [cycle_idle hr hb, decodeRows_cmdWord, hs, exec_decode_idle _ _ idle]

theorem cycle_idle_write {s : State} (hr : (portsNow s).rst = false) (hb : s.busy = false)
    (hs : (portsNow s).start = false) (hw : (portsNow s).bufWe = true) :
    cycle s = .next (writePort (portsNow s).bufWaddr (portsNow s).bufWdata
      (sampleRead (portsNow s).bufRaddr (clearDone (popInputs s)))) := by
  simp [cycle_idle hr hb, decodeRows_cmdWord, hs, hw]

theorem cycle_idle_read {s : State} (hr : (portsNow s).rst = false) (hb : s.busy = false)
    (hs : (portsNow s).start = false) (hw : (portsNow s).bufWe = false) :
    cycle s = .next (sampleRead (portsNow s).bufRaddr (clearDone (popInputs s))) := by
  simp [cycle_idle hr hb, decodeRows_cmdWord, hs, hw]

/-! ### What a cycle does to `BUF` and to the read port -/

/-- The edges that write a byte of `BUF`: a `BUF_WRITE` accepted by 42_host_control.md R172 to an index that exists
(20_memory.md R50). -/
abbrev WritesBuf (s : State) : Prop :=
  (portsNow s).rst = false ∧ s.busy = false ∧ (portsNow s).start = false ∧ (portsNow s).bufWe = true ∧
    (portsNow s).bufWaddr.toNat < s.params.maxLen

@[simp] theorem writePort_bufRdata (a : Half) (v : Byte) (s : State) : (writePort a v s).bufRdata = s.bufRdata := by
  obtain ⟨_, _, h⟩ | ⟨_, h⟩ := writePort_cases a v s
  · rw [h, memWrite_bufRdata]
  · rw [h]

theorem writePort_buf_of_idle (a : Half) (v : Byte) {s : State} (hb : s.busy = false) :
    (writePort a v s).buf = if a.toNat < s.params.maxLen then memStore s.buf a.toNat v else s.buf := by
  obtain ⟨_, ha, h⟩ | ⟨hn, h⟩ := writePort_cases a v s
  · rw [h, if_pos ha, memWrite_buf]
  · have ha : ¬ a.toNat < s.params.maxLen := by simpa [hb] using hn
    rw [h, if_neg ha]

/-- The completing edge answers, and neither writes `BUF` nor samples the read port. -/
theorem completeDecode_answers (s : State) :
    ∃ t, completeDecode s = .next t ∧ t.buf = s.buf ∧ t.bufRdata = s.bufRdata := by
  obtain hs | hs := Nat.lt_or_ge s.n.toNat
    (20 + headerNeed s.params (variantOf (unpackSel (selWord s))) (unpackSel (selWord s)).domainLengthCode)
  · exact ⟨_, completeDecode_short rfl hs, takeError_buf _ s, takeError_bufRdata _ s⟩
  · exact ⟨_, completeDecode_fits rfl hs, rfl, rfl⟩

theorem progress_answers (s : State) : ∃ t, progress s = .next t ∧ t.buf = s.buf ∧ t.bufRdata = s.bufRdata := by
  unfold progress
  split
  · exact completeDecode_answers s
  · exact ⟨_, rfl, countDown_buf s, countDown_bufRdata s⟩

/-- Every cycle answers; it samples the read port from `BUF` as it found it, and writes at most the one byte of an accepted
`BUF_WRITE`. -/
theorem cycle_answers (s : State) :
    ∃ t, cycle s = .next t ∧ t.bufRdata = readPort s (portsNow s).bufRaddr ∧
      (WritesBuf s → t.buf = memStore s.buf (portsNow s).bufWaddr.toNat (portsNow s).bufWdata) ∧
      (¬ WritesBuf s → t.buf = s.buf) := by
  cases hr : (portsNow s).rst with
  | true => exact ⟨_, cycle_reset hr, rfl, by simp [hr], fun _ => rfl⟩
  | false =>
    cases hb : s.busy with
    | true =>
      obtain ⟨t, ht, hbuf, hrd⟩ := progress_answers (sampleRead (portsNow s).bufRaddr (clearDone (popInputs s)))
      exact ⟨t, (cycle_busy hr hb).trans ht, hrd, by simp [hb], fun _ => hbuf⟩
    | false =>
      cases hs : (portsNow s).start with
      | true => exact ⟨_, cycle_idle_start hr hb hs, rfl, by simp [hs], fun _ => rfl⟩
      | false =>
        cases hw : (portsNow s).bufWe with
        | true =>
          have buf := writePort_buf_of_idle (portsNow s).bufWaddr (portsNow s).bufWdata
            (s := sampleRead (portsNow s).bufRaddr (clearDone (popInputs s))) hb
          exact ⟨_, cycle_idle_write hr hb hs hw, writePort_bufRdata _ _ _,
            fun ⟨_, _, _, _, ha⟩ => buf.trans (if_pos ha), fun h => buf.trans (if_neg fun ha => h ⟨hr, hb, hs, hw, ha⟩)⟩
        | false => exact ⟨_, cycle_idle_read hr hb hs hw, rfl, by simp [hw], fun _ => rfl⟩

/-- After the write of an edge `BUF` reads as after the byte's `MemWrite`. -/
theorem bufByte_of_buf_eq_memStore {s t : State}
    (h : t.buf = memStore s.buf (portsNow s).bufWaddr.toNat (portsNow s).bufWdata) :
    bufByte t (portsNow s).bufWaddr.toNat = (portsNow s).bufWdata ∧
      ∀ a, a ≠ (portsNow s).bufWaddr.toNat → bufByte t a = bufByte s a := by
  have hb : bufByte t = bufByte (memWrite (portsNow s).bufWaddr.toNat (portsNow s).bufWdata s) := bufByte_congr h
  exact ⟨by rw [hb, bufByte_memWrite_same], fun a ha => by rw [hb, bufByte_memWrite_other _ _ ha]⟩

/-- Settles O49. A step that does not write leaves every byte, and one that does leaves every byte but its own. -/
theorem bufferChangesOnlyByWrite : Obligations.BufferChangesOnlyByWrite := by
  intro s t a hstep hne
  obtain ⟨t', ht', -, written, kept⟩ := cycle_answers s
  obtain rfl : t' = t := Host.Outcome.next.inj (ht'.symm.trans hstep)
  by_cases hw : WritesBuf s
  · obtain ⟨same, other⟩ := bufByte_of_buf_eq_memStore (written hw)
    obtain rfl : a = (portsNow s).bufWaddr.toNat := not_imp_comm.1 (other a) hne
    obtain ⟨hr, hb, hs, hwe, ha⟩ := hw
    exact ⟨hr, hb, hs, hwe, rfl, ha, same⟩
  · exact absurd (congrFun (bufByte_congr (kept hw)) a) hne

/-- Settles O25. The sampled value is the port's value in the state the cycle began in; the written byte stands in the state it
leads to. -/
theorem readPortAnswersEveryCycle : Obligations.ReadPortAnswersEveryCycle := by
  intro s
  obtain ⟨t, ht, hrd, written, -⟩ := cycle_answers s
  refine ⟨t, ht, fun _ => rfl, hrd, fun hr hb hs hw ha => ?_⟩
  have inRange : (portsNow s).bufWaddr.toNat < t.params.maxLen := by rwa [cycle_keeps_params ht]
  exact (readPort_below inRange).trans (bufByte_of_buf_eq_memStore (written ⟨hr, hb, hs, hw, ha⟩)).1

/-! ### What a decode reads -/

theorem memRead_congr_of_bytes {s t : State} {a n : Nat} (h : ∀ i < n, bufByte s (a + i) = bufByte t (a + i)) :
    memRead s a n = memRead t a n := by
  induction n with
  | zero => rfl
  | succ n ih => simp only [memRead, ih fun i hi => h i (by omega), h n (by omega)]

/-- No layout needs more than 17 header bytes (30_encoding.md R70). -/
theorem headerNeed_le (p : Params) (f : SelFields) (code : BitVec 2) : headerNeed p (variantOf f) code ≤ 17 := by
  obtain ⟨-, hend, hoff⟩ := layoutEnds_le p.af3SourceCompat f.addressFormat f.modeFlag
  have hlen := dlen_le_six code
  rw [headerNeed_eq_need, need]
  omega

theorem five_le_headerNeed (p : Params) (f : SelFields) (code : BitVec 2) : 5 ≤ headerNeed p (variantOf f) code := by
  rw [headerNeed_eq_need]
  exact five_le_need _ _ _ _

theorem destinationOf_congr_of_bytes {s t : State} (f : SelFields)
    (h : ∀ a < 20 + addrEnd (variantOf f), bufByte s a = bufByte t a) : destinationOf f s = destinationOf f t := by
  cases hv : variantOf f with
  | neuronId =>
    simp only [hv, addrEnd, addrLen] at h
    have neuron : memRead s 25 6 = memRead t 25 6 := memRead_congr_of_bytes fun i hi => h _ (by omega)
    simp [destinationOf, hv, hdrByte, h, neuron]
  | subnet | group | subnetNode | subnetNodeGroup =>
    simp only [hv, addrEnd, addrLen] at h
    simp [destinationOf, hv, hdrByte, h]

/-- The results are a function of the parameters, of `N` and of the bytes of the header's layout. -/
theorem decodedResults_congr {s t : State} {f : SelFields} (hp : s.params = t.params) (hn : s.n = t.n)
    (h : ∀ a < 20 + headerNeed s.params (variantOf f) f.domainLengthCode, bufByte s a = bufByte t a) :
    decodedResults f s = decodedResults f t := by
  have five := five_le_headerNeed s.params f f.domainLengthCode
  have addr : addrEnd (variantOf f) ≤ headerNeed s.params (variantOf f) f.domainLengthCode := le_max_left _ _
  have dom : domainOffset s.params (variantOf f) + domainBytes f.domainLengthCode ≤
      headerNeed s.params (variantOf f) f.domainLengthCode := le_max_right _ _
  have envelope : ∀ a k, a + k ≤ 20 → memRead s a k = memRead t a k := fun a k hk =>
    memRead_congr_of_bytes fun i hi => h _ (by omega)
  have header : ∀ i < 4, hdrByte s i = hdrByte t i := fun i hi => h _ (by omega)
  have domain := memRead_congr_of_bytes (s := s) (t := t) (a := 20 + domainOffset s.params (variantOf f))
    (n := domainBytes f.domainLengthCode) fun i hi => h _ (by omega)
  have destination := destinationOf_congr_of_bytes f fun a ha => h a (by omega)
  simp [decodedResults, envelope, header, domain, destination, ← hp, hn]

/-- Below 24 bytes the decode fails whatever the selector bytes are. -/
theorem completeDecode_of_lt_24 {s : State} (h : s.n.toNat < 24) :
    completeDecode s = .next (takeError (if s.n.toNat < 20 then .truncatedEnvelope else .truncatedHeader) s) := by
  have five := five_le_headerNeed s.params (unpackSel (selWord s)) (unpackSel (selWord s)).domainLengthCode
  exact completeDecode_short rfl (by omega)

/-- A completing edge with another buffer that agrees below `min(N, 37)`, and any sampled read port. -/
theorem completeDecode_reads_datagram {s : State} {m : Memory} (x : Byte)
    (h : ∀ a < min s.n.toNat 37, bufByte { s with buf := m } a = bufByte s a) :
    ∃ t, completeDecode s = .next t ∧
      completeDecode { s with buf := m, bufRdata := x } = .next { t with buf := m, bufRdata := x } := by
  obtain h24 | h24 := Nat.lt_or_ge s.n.toNat 24
  · exact ⟨_, completeDecode_of_lt_24 h24, completeDecode_of_lt_24 h24⟩
  · have sel : selWord { s with buf := m, bufRdata := x } = selWord s :=
      congrArg₂ (· ++ ·) (h 21 (by omega)) (h 23 (by omega))
    obtain hs | hs := Nat.lt_or_ge s.n.toNat
      (20 + headerNeed s.params (variantOf (unpackSel (selWord s))) (unpackSel (selWord s)).domainLengthCode)
    · exact ⟨_, completeDecode_short rfl hs, completeDecode_short (congrArg unpackSel sel) hs⟩
    · have need := headerNeed_le s.params (unpackSel (selWord s)) (unpackSel (selWord s)).domainLengthCode
      have res : decodedResults (unpackSel (selWord s)) { s with buf := m, bufRdata := x } =
          decodedResults (unpackSel (selWord s)) s :=
        decodedResults_congr rfl rfl fun a ha => h a (lt_of_lt_of_le ha (le_min hs (Nat.add_le_add_left need 20)))
      refine ⟨_, completeDecode_fits rfl hs, ?_⟩
      rw [completeDecode_fits (congrArg unpackSel sel) hs, res]
      rfl

theorem cycle_completing {s : State} (h : Completing s) :
    cycle s = completeDecode (sampleRead (portsNow s).bufRaddr (clearDone (popInputs s))) := by
  obtain ⟨hr, hb, hc⟩ := h
  rw [cycle_busy hr hb, progress, if_pos (by simpa using hc)]

/-- Settles O46. The ports of the cycle do not depend on `BUF`, so both cycles complete, from states that differ in `BUF` and in
the sampled read port alone. -/
theorem decodeReadsOnlyItsDatagram : Obligations.DecodeReadsOnlyItsDatagram := by
  intro s m hc h
  obtain ⟨t, ht, htm⟩ := completeDecode_reads_datagram
    (s := sampleRead (portsNow s).bufRaddr (clearDone (popInputs s))) (m := m)
    (readPort { s with buf := m } (portsNow s).bufRaddr) h
  exact ⟨t, (cycle_completing hc).trans ht, (cycle_completing (s := { s with buf := m }) hc).trans htm⟩

end Sys2Proof.Machine

/-! Proofs of the statements of 30_encoding.md: the encoder and the decoder are inverse on well-formed instructions (O5, O6), a
selector word selects one row of each group, by mask and match (O7), the rows of the command words (O8) and of the test vectors'
selector words (O9), and the table of the smallest lengths (O51). -/

namespace Sys2Proof

open Sys2Proof.Machine

/-! ### The six fields and the selector word -/

theorem packSel_unpackSel (sel : SelWord) : packSel (unpackSel sel) = sel := by
  refine BitVec.eq_of_getLsbD_eq fun i hi => ?_
  rw [packSel_getLsbD]
  interval_cases i <;> simp [unpackSel]

theorem unpackSel_packSel (f : SelFields) : unpackSel (packSel f) = f := by
  have bits : ∀ {k w : Nat} {x : BitVec w}, (∀ i < w, (packSel f).getLsbD (k + i) = x.getLsbD i) →
      (packSel f).extractLsb' k w = x := fun h =>
    BitVec.eq_of_getLsbD_eq fun i hi => by simpa [BitVec.getLsbD_extractLsb', hi] using h i hi
  obtain ⟨version, pduFormat, addressFormat, domainLengthCode, modeFlag, srcNode⟩ := f
  simp only [unpackSel, SelFields.mk.injEq]
  refine ⟨bits ?_, bits ?_, bits ?_, bits ?_, packSel_getLsbD _ 7, bits ?_⟩ <;>
  · intro i hi
    rw [packSel_getLsbD]
    interval_cases i <;> rfl

theorem packSel_injective : Function.Injective packSel :=
  Function.LeftInverse.injective unpackSel_packSel

/-! ### The rows of the six fields -/

/-- The address layout row is the one well-formed instruction of its group that the fields' word encodes. -/
theorem eq_addressRow_iff (i : Instr) (f : SelFields) :
    i = addressRow f ↔ i.group = .address ∧ i.wf = true ∧ encode i = .selector (packSel f) := by
  constructor
  · rintro rfl
    rcases two_bit_cases f.addressFormat with h | h | h | h
    · simp [addressRow, h, Instr.group, Instr.wf, encode]
    · simp [addressRow, h, Instr.group, Instr.wf, encode]
    · cases m : f.modeFlag <;> simp [addressRow, h, m, Instr.group, Instr.wf, encode]
    · simp [addressRow, h, Instr.group, Instr.wf, encode]
  · rintro ⟨group, wf, enc⟩
    cases i with
    | af0Subnet g | af1Group g | af2SubnetNode g | af2SubnetNodeGroup g | af3NeuronId g =>
      obtain rfl := packSel_injective (Encoded.selector.inj enc)
      simp_all [Instr.wf, addressRow]
    | _ => cases group

/-- The domain length row, likewise. -/
theorem eq_domainRow_iff (i : Instr) (f : SelFields) :
    i = domainRow f ↔ i.group = .domain ∧ i.wf = true ∧ encode i = .selector (packSel f) := by
  constructor
  · rintro rfl
    rcases two_bit_cases f.domainLengthCode with h | h | h | h <;>
      simp [domainRow, h, Instr.group, Instr.wf, encode]
  · rintro ⟨group, wf, enc⟩
    cases i with
    | dom0 g | dom1 g | dom3 g | dom6 g =>
      obtain rfl := packSel_injective (Encoded.selector.inj enc)
      simp_all [Instr.wf, domainRow]
    | _ => cases group

/-- The pdu format row, likewise. -/
theorem eq_pduRow_iff (i : Instr) (f : SelFields) :
    i = pduRow f ↔ i.group = .pdu ∧ i.wf = true ∧ encode i = .selector (packSel f) := by
  constructor
  · rintro rfl
    rcases two_bit_cases f.pduFormat with h | h | h | h <;>
      simp [pduRow, h, Instr.group, Instr.wf, encode]
  · rintro ⟨group, wf, enc⟩
    cases i with
    | pduTpdu g | pduSpdu g | pduAuthpdu g | pduApdu g =>
      obtain rfl := packSel_injective (Encoded.selector.inj enc)
      simp_all [Instr.wf, pduRow]
    | _ => cases group

/-! ### The rows of a word -/

theorem group_ne_command_of_encode_selector {i : Instr} {sel : SelWord} (h : encode i = .selector sel) :
    i.group ≠ .command := by
  cases i <;> simp_all [encode, Instr.group]

/-- A selector word selects exactly the well-formed instructions that encode to it. -/
theorem mem_decodeRows_selector_iff (sel : SelWord) (i : Instr) :
    i ∈ decodeRows (.selector sel) ↔ i.wf = true ∧ encode i = .selector sel := by
  have notCommand : encode i = .selector sel → i.group ≠ .command := group_ne_command_of_encode_selector
  simp only [decodeRows, decodeSel, List.mem_cons, List.not_mem_nil, or_false, eq_addressRow_iff, eq_domainRow_iff,
    eq_pduRow_iff, packSel_unpackSel]
  cases h : i.group <;> simp_all

/-- The command word of a host command, with the command's operands on their ports, selects it. -/
theorem mem_decodeRows_of_encode_command {i : Instr} {cmd : CmdWord} {p : CmdPorts} (h : encode i = .command cmd p) :
    i ∈ decodeRows (.command cmd p) := by
  cases i with
  | decode we len =>
    cases h
    cases we <;> simp [decodeRows, decodeCmd]
  | bufWrite a v =>
    cases h
    simp [decodeRows, decodeCmd]
  | bufRead a =>
    cases h
    exact List.mem_cons_self
  | _ => cases h

/-- Settles O5. -/
theorem encodeThenDecodeFindsRow : Obligations.EncodeThenDecodeFindsRow := by
  intro i wf
  cases h : encode i with
  | selector sel => exact (mem_decodeRows_selector_iff sel i).2 ⟨wf, h⟩
  | command cmd p => exact mem_decodeRows_of_encode_command h

/-- Settles O6. -/
theorem decodedRowsEncodeBack : Obligations.DecodedRowsEncodeBack :=
  fun sel i => (mem_decodeRows_selector_iff sel i).1

/-! ### Mask and match -/

theorem patternFits (i : Instr) : Laws.PatternFits.Statement i := by
  cases i with
  | af0Subnet f => exact Laws.PatternFits.af0Subnet f
  | af1Group f => exact Laws.PatternFits.af1Group f
  | af2SubnetNode f => exact Laws.PatternFits.af2SubnetNode f
  | af2SubnetNodeGroup f => exact Laws.PatternFits.af2SubnetNodeGroup f
  | af3NeuronId f => exact Laws.PatternFits.af3NeuronId f
  | dom0 f => exact Laws.PatternFits.dom0 f
  | dom1 f => exact Laws.PatternFits.dom1 f
  | dom3 f => exact Laws.PatternFits.dom3 f
  | dom6 f => exact Laws.PatternFits.dom6 f
  | pduTpdu f => exact Laws.PatternFits.pduTpdu f
  | pduSpdu f => exact Laws.PatternFits.pduSpdu f
  | pduAuthpdu f => exact Laws.PatternFits.pduAuthpdu f
  | pduApdu f => exact Laws.PatternFits.pduApdu f
  | decode we len => exact Laws.PatternFits.decode we len
  | bufWrite a v => exact Laws.PatternFits.bufWrite a v
  | bufRead a => exact Laws.PatternFits.bufRead a

/-- An instruction encoded as a selector word is well formed exactly when the word meets the mask and match of its row. -/
theorem wf_iff_meets_selPattern {i : Instr} {sel : SelWord} (h : encode i = .selector sel) :
    i.wf = true ↔ ∃ mask pattern, selPattern i = some (mask, pattern) ∧ sel &&& mask = pattern := by
  have fits := patternFits i
  rw [Laws.PatternFits.Statement, h] at fits
  obtain ⟨mask, pattern, hp, hwf⟩ := fits
  simp [hp, hwf, eq_comm]

/-- The rows of a selector word stand in the order address, domain, pdu, one of each group. -/
theorem map_group_decodeRows_selector (sel : SelWord) :
    (decodeRows (.selector sel)).map Instr.group = [.address, .domain, .pdu] := by
  obtain ⟨address, -⟩ := (eq_addressRow_iff _ (unpackSel sel)).1 rfl
  obtain ⟨domain, -⟩ := (eq_domainRow_iff _ (unpackSel sel)).1 rfl
  obtain ⟨pdu, -⟩ := (eq_pduRow_iff _ (unpackSel sel)).1 rfl
  simp [decodeRows, decodeSel, address, domain, pdu]

theorem mem_decodeRows_selector_iff_meets_selPattern (sel : SelWord) (i : Instr) :
    i ∈ decodeRows (.selector sel) ↔
      ∃ mask pattern, selPattern i = some (mask, pattern) ∧ sel &&& mask = pattern ∧ encode i = .selector sel := by
  rw [mem_decodeRows_selector_iff]
  constructor
  · rintro ⟨wf, enc⟩
    obtain ⟨mask, pattern, hp, hm⟩ := (wf_iff_meets_selPattern enc).1 wf
    exact ⟨mask, pattern, hp, hm, enc⟩
  · rintro ⟨mask, pattern, hp, hm, enc⟩
    exact ⟨(wf_iff_meets_selPattern enc).2 ⟨mask, pattern, hp, hm⟩, enc⟩

/-- Settles O7. The six fields are slices of the word by definition. -/
theorem selectorSelectsOneRowPerGroup : Obligations.SelectorSelectsOneRowPerGroup :=
  ⟨selWord_eq, fun sel => ⟨rfl, rfl, rfl, rfl, rfl, rfl, map_group_decodeRows_selector sel,
    mem_decodeRows_selector_iff_meets_selPattern sel⟩⟩

/-! ### Fixed words -/

/-- Settles O8. The word's two bits choose the branch; the operands pass through. -/
theorem commandWordRows : Obligations.CommandWordRows :=
  fun _ => ⟨rfl, rfl, rfl, rfl⟩

/-- Settles O9. Four closed words. -/
theorem vectorSelectorsDecode : Obligations.VectorSelectorsDecode := by
  unfold Obligations.VectorSelectorsDecode
  decide

/-! ### The smallest lengths -/

theorem domainBytes_le_six (code : BitVec 2) : domainBytes code ≤ 6 := by
  rw [Safety.domainBytes_eq_dlen]
  exact Safety.dlen_le_six code

/-- Where the domain follows the address, the header ends with the domain. -/
theorem headerNeed_of_ne_neuronId (p : Params) {v : Variant} (h : v ≠ .neuronId) (code : BitVec 2) :
    headerNeed p v code = addrEnd v + domainBytes code := by
  cases v with
  | neuronId => exact absurd rfl h
  | subnet | group | subnetNode | subnetNodeGroup => exact max_eq_right (Nat.le_add_right _ _)

/-- In the compat setting the domain lies inside the neuron id's bytes, whatever its length. -/
theorem headerNeed_neuronId (p : Params) (code : BitVec 2) :
    headerNeed p .neuronId code = if p.af3SourceCompat then 11 else 11 + domainBytes code := by
  have := domainBytes_le_six code
  cases h : p.af3SourceCompat <;> simp [headerNeed, domainOffset, addrEnd, addrLen, h]
  omega

/-- The two longest layouts: NEURON_ID with a 6-byte domain, and in the compat setting SUBNET_NODE_GROUP with one. -/
theorem minimumLength_le (p : Params) (v : Variant) (code : BitVec 2) :
    20 + headerNeed p v code ≤ if p.af3SourceCompat then 34 else 37 := by
  have := domainBytes_le_six code
  cases v with
  | neuronId =>
    rw [headerNeed_neuronId]
    split <;> omega
  | subnet | group | subnetNode | subnetNodeGroup =>
    rw [headerNeed_of_ne_neuronId p (by decide)]
    simp only [addrEnd, addrLen]
    split <;> omega

/-- Settles O51. -/
theorem minimumLengthTable : Obligations.MinimumLengthTable := by
  intro p
  have follows : ∀ {v : Variant}, v ≠ .neuronId → [0#2, 1#2, 2#2, 3#2].map (fun c => 20 + headerNeed p v c) =
      [0, 1, 3, 6].map (fun k => 20 + (addrEnd v + k)) := fun h => by
    simp [headerNeed_of_ne_neuronId p h, domainBytes]
  refine ⟨follows (by decide), follows (by decide), follows (by decide), follows (by decide), ?_, minimumLength_le p,
    fun v c => le_max_right _ _⟩
  cases h : p.af3SourceCompat <;> simp [headerNeed_neuronId, h, domainBytes]

end Sys2Proof

/-! Proofs of the statements of 40_envelope.md: the envelope registers read back from `BUF` after a successful decode (O42), and
the declared length reaches `ENV_LENGTH` and no other register (O47). -/

namespace Sys2Proof.Machine

open Sys2Proof.Safety

/-! ### The two outcomes of a completing edge -/

/-- A completing edge takes the error of a datagram that is too short, or writes the results of one that is long enough. -/
theorem completeDecode_cases (s : State) :
    (s.n.toNat < 20 + headerNeed s.params (variantOf (unpackSel (selWord s))) (unpackSel (selWord s)).domainLengthCode ∧
      completeDecode s = .next (takeError (if s.n.toNat < 20 then .truncatedEnvelope else .truncatedHeader) s)) ∨
    (20 + headerNeed s.params (variantOf (unpackSel (selWord s))) (unpackSel (selWord s)).domainLengthCode ≤ s.n.toNat ∧
      completeDecode s = .next { statusCompleted s with res := decodedResults (unpackSel (selWord s)) s }) :=
  (Nat.lt_or_ge _ _).imp (fun h => ⟨h, completeDecode_short rfl h⟩) fun h => ⟨h, completeDecode_fits rfl h⟩

/-- `VALID` is set only by a datagram that is long enough, and then the registers are its results. -/
theorem completeDecode_of_valid {s t : State} (h : completeDecode s = .next t) (hv : t.valid = true) :
    20 + headerNeed s.params (variantOf (unpackSel (selWord s))) (unpackSel (selWord s)).domainLengthCode ≤ s.n.toNat ∧
      t = { statusCompleted s with res := decodedResults (unpackSel (selWord s)) s } := by
  obtain ⟨-, hs⟩ | ⟨fits, hs⟩ := completeDecode_cases s
  · obtain rfl := Host.Outcome.next.inj (h.symm.trans hs)
    simp at hv
  · exact ⟨fits, Host.Outcome.next.inj (h.symm.trans hs)⟩

/-! ### The envelope registers -/

/-- Settles O42. The edge writes each register by one `MemRead` of the buffer that it then leaves as it was. -/
theorem envelopeRoundTrip : Obligations.EnvelopeRoundTrip := by
  intro s t hc hstep hv
  obtain ⟨-, rfl⟩ := completeDecode_of_valid ((cycle_completing hc).symm.trans hstep) hv
  exact ⟨memRead_two _ 0, memRead_one _ 2, memRead_one _ 3, memRead_one _ 4, memRead_one _ 5, memRead_two _ 6,
    memRead_four _ 8, memRead_four _ 12, memRead_four _ 16⟩

/-! ### The declared length -/

/-- The destination is read from the header alone, from `H[4]` on. -/
theorem destinationOf_congr_of_header {s t : State} (f : SelFields) (h : ∀ a, 24 ≤ a → bufByte s a = bufByte t a) :
    destinationOf f s = destinationOf f t := by
  have header : ∀ i, 4 ≤ i → hdrByte s i = hdrByte t i := fun i hi => h _ (by omega)
  have neuron : memRead s 25 6 = memRead t 25 6 := memRead_congr_of_bytes fun i _ => h _ (by omega)
  simp [destinationOf, header, neuron]

/-- Bytes 0 and 1 of the datagram reach `ENV_LENGTH` and no other result register. -/
theorem decodedResults_of_declaredLength {s t : State} (f : SelFields) (hp : s.params = t.params) (hn : s.n = t.n)
    (h : ∀ a, 2 ≤ a → bufByte s a = bufByte t a) :
    decodedResults f s = { decodedResults f t with envLength := bufByte s 0 ++ bufByte s 1 } := by
  have reads : ∀ a k, 2 ≤ a → memRead s a k = memRead t a k := fun a k ha =>
    memRead_congr_of_bytes fun i _ => h _ (by omega)
  have header : ∀ i, hdrByte s i = hdrByte t i := fun i => h _ (by omega)
  have destination := destinationOf_congr_of_header f fun a ha => h a (by omega)
  have domain : ∀ b k, memRead s (20 + b) k = memRead t (20 + b) k := fun b k => reads _ k (by omega)
  simp [decodedResults, memRead_two s 0, reads, header, domain, destination, hp, hn]

/-- On a datagram that is long enough the domain ends within it. -/
theorem domain_end_le_n {s : State} {f : SelFields}
    (fits : 20 + headerNeed s.params (variantOf f) f.domainLengthCode ≤ s.n.toNat) :
    20 + domainOffset s.params (variantOf f) + domainBytes f.domainLengthCode ≤ s.n.toNat := by
  have dom : domainOffset s.params (variantOf f) + domainBytes f.domainLengthCode ≤
      headerNeed s.params (variantOf f) f.domainLengthCode := le_max_right _ _
  omega

/-- The payload starts behind the domain (41_lon_header.md R141), at an offset that fits its register. -/
theorem decodedResults_payloadOff_toNat {s : State} {f : SelFields}
    (fits : 20 + headerNeed s.params (variantOf f) f.domainLengthCode ≤ s.n.toNat) :
    (decodedResults f s).payloadOff.toNat =
      20 + domainOffset s.params (variantOf f) + domainBytes f.domainLengthCode :=
  Nat.mod_eq_of_lt ((domain_end_le_n fits).trans_lt s.n.isLt)

/-- The payload of a datagram that is long enough ends at `N`, whatever length the datagram declares. -/
theorem decodedResults_payload_end {s : State} {f : SelFields}
    (fits : 20 + headerNeed s.params (variantOf f) f.domainLengthCode ≤ s.n.toNat) :
    (decodedResults f s).payloadOff.toNat + (decodedResults f s).payloadLen.toNat = s.n.toNat := by
  have le : (decodedResults f s).payloadOff.toNat ≤ s.n.toNat := by
    rw [decodedResults_payloadOff_toNat fits]
    exact domain_end_le_n fits
  have len : (decodedResults f s).payloadLen.toNat = s.n.toNat - (decodedResults f s).payloadOff.toNat :=
    BitVec.toNat_sub_of_le le
  rw [len, Nat.add_sub_cancel' le]

/-- A completing edge with another buffer that agrees from byte 2 on, and any sampled read port: neither the length check nor the
selector word reads the declared length. -/
theorem completeDecode_declaredLength {s : State} {m : Memory} (x : Byte)
    (h : ∀ a, 2 ≤ a → bufByte { s with buf := m } a = bufByte s a) :
    ∃ t, completeDecode s = .next t ∧
      (t.valid = true → t.res.payloadOff.toNat + t.res.payloadLen.toNat = s.n.toNat) ∧
      completeDecode { s with buf := m, bufRdata := x } =
        .next { t with
          buf := m
          bufRdata := x
          res := { t.res with envLength :=
            if t.valid then bufByte { s with buf := m } 0 ++ bufByte { s with buf := m } 1 else 0#16 } } := by
  have sel : selWord { s with buf := m, bufRdata := x } = selWord s :=
    congrArg₂ (· ++ ·) (h 21 (by omega)) (h 23 (by omega))
  obtain ⟨short, hs⟩ | ⟨fits, hs⟩ := completeDecode_cases s
  · exact ⟨_, hs, by simp, completeDecode_short (congrArg unpackSel sel) short⟩
  · have res := decodedResults_of_declaredLength (s := { s with buf := m, bufRdata := x }) (t := s)
      (unpackSel (selWord s)) rfl rfl h
    refine ⟨_, hs, fun _ => decodedResults_payload_end fits, ?_⟩
    rw [completeDecode_fits (congrArg unpackSel sel) fits, res]
    rfl

/-- Settles O47. Both cycles complete, from states that differ in `BUF` and in the sampled read port alone. -/
theorem declaredLengthNotChecked : Obligations.DeclaredLengthNotChecked := by
  intro s m hc h
  obtain ⟨t, ht, hend, htm⟩ := completeDecode_declaredLength
    (s := sampleRead (portsNow s).bufRaddr (clearDone (popInputs s))) (m := m)
    (readPort { s with buf := m } (portsNow s).bufRaddr) h
  exact ⟨t, (cycle_completing hc).trans ht, hend, (cycle_completing (s := { s with buf := m }) hc).trans htm⟩

end Sys2Proof.Machine

/-! Proofs of the statements of 41_lon_header.md: when a decode succeeds (O31) and what its rows do on a datagram that is long
enough or too short (O11, O34 to O41), the fields of a successful decode (O44, O45), the check before each read (O52), and what
`AF3_SOURCE_COMPAT` changes (O48, O53). -/

namespace Sys2Proof.Machine

open Sys2Proof.Safety

/-! ### The address layout rows -/

/-- The header ends with the domain behind the address, in every layout but the neuron id's, whose domain the compat setting
moves. -/
theorem twenty_add_headerNeed_of_ne_neuronId (p : Params) {v : Variant} (h : v ≠ .neuronId) (code : BitVec 2) :
    20 + headerNeed p v code = 20 + addrEnd v + dlen code := by
  rw [headerNeed_of_ne_neuronId p h, domainBytes_eq_dlen, Nat.add_assoc]

theorem twenty_add_headerNeed_neuronId (p : Params) (code : BitVec 2) :
    20 + headerNeed p .neuronId code = if p.af3SourceCompat then 31 else 31 + dlen code := by
  rw [headerNeed_neuronId, domainBytes_eq_dlen]
  split <;> omega

/-- A row behind a datagram that holds the envelope: its writes, or `TruncatedHeader`. -/
theorem withHeader_of_envelope {v : Variant} {code : BitVec 2} {s : State} {len : Nat} (write : State → State)
    (hlen : 20 + headerNeed s.params v code = len) :
    (len ≤ s.n.toNat → withHeader v code write s = .next (write s)) ∧
    (20 ≤ s.n.toNat → s.n.toNat < len → withHeader v code write s = .next (afterError 2#2 s)) := by
  subst hlen
  refine ⟨withHeader_fits write, fun h20 short => ?_⟩
  rw [withHeader_short write short, if_neg (Nat.not_lt.2 h20)]
  rfl

/-- Settles O34. -/
theorem subnetLayout : Obligations.SubnetLayout := fun f s =>
  withHeader_of_envelope (writeDestination { unpopulated .subnet with dstSubnet := hdrByte s 4 })
    (twenty_add_headerNeed_of_ne_neuronId s.params (by decide) f.domainLengthCode)

/-- Settles O35. -/
theorem groupLayout : Obligations.GroupLayout := fun f s =>
  withHeader_of_envelope (writeDestination { unpopulated .group with dstGroup := hdrByte s 4 })
    (twenty_add_headerNeed_of_ne_neuronId s.params (by decide) f.domainLengthCode)

/-- Settles O36. -/
theorem subnetNodeLayout : Obligations.SubnetNodeLayout := fun f s =>
  withHeader_of_envelope
    (writeDestination { unpopulated .subnetNode with dstSubnet := hdrByte s 4, dstNode := nodeField (hdrByte s 5) })
    (twenty_add_headerNeed_of_ne_neuronId s.params (by decide) f.domainLengthCode)

/-- Settles O37. -/
theorem subnetNodeGroupLayout : Obligations.SubnetNodeGroupLayout := fun f s =>
  withHeader_of_envelope
    (writeDestination { unpopulated .subnetNodeGroup with
      dstSubnet := hdrByte s 4, dstNode := nodeField (hdrByte s 5), group := hdrByte s 6, groupMember := hdrByte s 7 })
    (twenty_add_headerNeed_of_ne_neuronId s.params (by decide) f.domainLengthCode)

/-- `DOMAIN_OFF` of the neuron id's layout, as the register holds it (30_encoding.md R69). -/
theorem ofNat_domainOffset_neuronId (p : Params) :
    BitVec.ofNat 5 (domainOffset p .neuronId) = if p.af3SourceCompat then 5#5 else 11#5 :=
  apply_ite (BitVec.ofNat 5) _ _ _

/-- Settles O38. -/
theorem neuronIdLayout : Obligations.NeuronIdLayout := by
  intro f s
  rw [← memRead_six s 25, ← ofNat_domainOffset_neuronId]
  exact withHeader_of_envelope
    (writeDestination { unpopulated .neuronId with dstSubnet := hdrByte s 4, neuronId := memRead s 25 6 })
    (twenty_add_headerNeed_neuronId s.params f.domainLengthCode)

/-! ### The domain rows and the pdu rows -/

/-- Three bytes zero-extended to 48 bits, as one concatenation. -/
theorem append_three_setWidth (x y z : Byte) : (x ++ y ++ z).setWidth 48 = (0#24 ++ x ++ y ++ z : BitVec 48) := by
  rw [BitVec.setWidth_eq_append (by decide), BitVec.append_assoc, BitVec.append_assoc, BitVec.append_assoc]
  rfl

/-- `DOMAIN` is the bytes of the domain, big-endian and zero-extended, each length written out (41_lon_header.md R140). -/
theorem memRead_domainBytes_setWidth (s : State) (a : Nat) (code : BitVec 2) :
    (memRead s a (domainBytes code)).setWidth 48 = domainValue (bufByte s) a code := by
  rcases two_bit_cases code with rfl | rfl | rfl | rfl
  · rfl
  · exact (congrArg (BitVec.setWidth 48) (memRead_one s a)).trans (BitVec.setWidth_eq_append (by decide))
  · exact (congrArg (BitVec.setWidth 48) (memRead_three s a)).trans (append_three_setWidth _ _ _)
  · exact (congrArg (BitVec.setWidth 48) (memRead_six s a)).trans (BitVec.setWidth_eq _)

/-- What a domain row writes, at the offset of the layout that its selector fields give. -/
theorem withHeader_writeDomain_fits {f : SelFields} {s : State} {doff : Nat} (code : BitVec 2)
    (hd : doff = (layoutEnds s.params.af3SourceCompat f.addressFormat f.modeFlag).2)
    (fits : 20 + need s.params.af3SourceCompat f.addressFormat f.modeFlag code ≤ s.n.toNat) :
    withHeader (variantOf f) code (writeDomain (variantOf f) (domainBytes code)) s =
      .next { s with res := { s.res with
        domainLen := BitVec.ofNat 3 (domainBytes code), domain := domainValue (bufByte s) (20 + doff) code } } := by
  rw [withHeader_fits _ (by rwa [headerNeed_eq_need]), writeDomain, memRead_domainBytes_setWidth,
    domainOffset_eq_layoutEnds, ← hd]

/-- Settles O39. -/
theorem domainRows : Obligations.DomainRows := by
  intro f s doff hd
  have index : ∀ i, 20 + i + doff = 20 + doff + i := fun i => Nat.add_right_comm 20 i doff
  rw [index 1, index 2, index 3, index 4, index 5]
  exact ⟨withHeader_writeDomain_fits 0#2 hd, withHeader_writeDomain_fits 1#2 hd, withHeader_writeDomain_fits 2#2 hd,
    withHeader_writeDomain_fits 3#2 hd⟩

/-- Settles O40. -/
theorem pduRows : Obligations.PduRows := by
  intro f s h
  have fits : 20 + headerNeed s.params (variantOf f) f.domainLengthCode ≤ s.n.toNat := by rwa [headerNeed_eq_need]
  exact ⟨withHeader_fits (writePdufmt 0#2) fits, withHeader_fits (writePdufmt 1#2) fits,
    withHeader_fits (writePdufmt 2#2) fits, withHeader_fits (writePdufmt 3#2) fits⟩

/-- The error entry of a datagram that is too short, with its code in `ERR` (60_exceptions.md R205, R206). -/
theorem takeError_of_short (n : Nat) (s : State) :
    takeError (if n < 20 then .truncatedEnvelope else .truncatedHeader) s = afterError (if n < 20 then 1#2 else 2#2) s := by
  split <;> rfl

/-- Settles O41. -/
theorem everyRowTakesTheSameError : Obligations.EveryRowTakesTheSameError := by
  intro sel i s hi h
  rw [exec_row_short hi (by rw [headerNeed_eq_need]; exact h), takeError_of_short]

/-! ### The completing edge, by the needed length -/

theorem unpackSel_selWord_addressFormat (s : State) :
    (unpackSel (selWord s)).addressFormat = (bufByte s 21).extractLsb' 2 2 := by
  rw [selWord_eq, unpackSel_append]

theorem unpackSel_selWord_domainLengthCode (s : State) :
    (unpackSel (selWord s)).domainLengthCode = (bufByte s 21).extractLsb' 0 2 := by
  rw [selWord_eq, unpackSel_append]

/-- The needed length of Safety.lean is the one the machine checks. -/
theorem neededLength_eq (s : State) :
    neededLength s =
      20 + headerNeed s.params (variantOf (unpackSel (selWord s))) (unpackSel (selWord s)).domainLengthCode := by
  rw [headerNeed_eq_need, selWord_eq, unpackSel_append]
  rfl

theorem twenty_five_le_neededLength (s : State) : 25 ≤ neededLength s :=
  Nat.add_le_add_left (five_le_need _ _ _ _) 20

/-- The state in which the completing edge runs the decode. -/
theorem step_completing {s : State} (hc : Completing s) : step s = completeDecode (clearDone (cycled s)) :=
  cycle_completing hc

theorem step_completing_short {s : State} (hc : Completing s) (short : s.n.toNat < neededLength s) :
    step s = .next (afterError (if s.n.toNat < 20 then 1#2 else 2#2) (cycled s)) := by
  rw [neededLength_eq] at short
  rw [step_completing hc, ← takeError_of_short]
  exact completeDecode_short (s := clearDone (cycled s)) rfl short

theorem step_completing_fits {s : State} (hc : Completing s) (fits : neededLength s ≤ s.n.toNat) :
    step s = .next { statusCompleted (cycled s) with res := decodedResults (unpackSel (selWord s)) s } := by
  rw [neededLength_eq] at fits
  have results : decodedResults (unpackSel (selWord s)) (clearDone (cycled s)) = decodedResults (unpackSel (selWord s)) s :=
    decodedResults_congr rfl rfl fun _ _ => rfl
  rw [step_completing hc, ← results]
  exact completeDecode_fits (s := clearDone (cycled s)) rfl fits

/-- Settles O31. No layout needs fewer than 25 bytes, so the three ranges of `N` exclude each other. -/
theorem successExactlyWhenLongEnough : Obligations.SuccessExactlyWhenLongEnough := by
  intro s t hc hstep
  have need := twenty_five_le_neededLength s
  obtain short | fits := Nat.lt_or_ge s.n.toNat (neededLength s)
  · obtain rfl := Host.Outcome.next.inj (hstep.symm.trans (step_completing_short hc short))
    by_cases h20 : s.n.toNat < 20
    · simp [afterError, h20, short]
    · simp [afterError, h20, short, Nat.not_lt.1 h20]
  · obtain rfl := Host.Outcome.next.inj (hstep.symm.trans (step_completing_fits hc fits))
    have h20 : ¬ s.n.toNat < 20 := by omega
    simp [fits, h20]

theorem andThen_assoc (o : Host.Outcome State Fault Refusal) (g h : State → Host.Outcome State Fault Refusal) :
    andThen (andThen o g) h = andThen o (fun t => andThen (g t) h) := by
  cases o <;> rfl

theorem completeDecode_eq_decodeWrites {s : State}
    (fits : 20 + headerNeed s.params (variantOf (unpackSel (selWord s))) (unpackSel (selWord s)).domainLengthCode ≤
      s.n.toNat) :
    completeDecode s = decodeWrites (selWord s) s := by
  rw [completeDecode, (decodeCheck_eq_none _ _ _ _).2 fits]

/-- Settles O11. -/
theorem completingStepRunsSelectedRows : Obligations.CompletingStepRunsSelectedRows := by
  rintro s r hc rfl fits
  rw [neededLength_eq] at fits
  have rows : completeDecode (clearDone (cycled s)) = decodeWrites (selWord s) (clearDone (cycled s)) :=
    completeDecode_eq_decodeWrites fits
  rw [step_completing hc, rows, decodeWrites, decodeRows]
  simp only [execAll_cons, andThen_assoc]
  rfl

/-! ### The fields of a successful decode -/

/-- A completing step that sets `VALID`: the datagram is long enough, and the step writes its results. -/
theorem step_completing_of_valid {s t : State} (hc : Completing s) (hstep : step s = .next t) (hv : t.valid = true) :
    neededLength s ≤ s.n.toNat ∧
      t = { statusCompleted (cycled s) with res := decodedResults (unpackSel (selWord s)) s } := by
  have fits := (successExactlyWhenLongEnough s t hc hstep).1.1 hv
  exact ⟨fits, Host.Outcome.next.inj (hstep.symm.trans (step_completing_fits hc fits))⟩

/-- Settles O44. `ADDR_VARIANT` determines the variant, whose layout leaves the registers it does not name unpopulated. -/
theorem unpopulatedDestinationIsZero : Obligations.UnpopulatedDestinationIsZero := by
  intro s t hc hstep hv
  obtain ⟨-, rfl⟩ := step_completing_of_valid hc hstep hv
  cases v : variantOf (unpackSel (selWord s)) with
  | subnet | group | subnetNode | subnetNodeGroup | neuronId =>
    simp [decodedResults, destinationOf, v, variantCode, unpopulated]

theorem domainOffset_le_eleven (p : Params) (v : Variant) : domainOffset p v ≤ 11 := by
  cases v with
  | neuronId =>
    simp only [domainOffset]
    split <;> decide
  | subnet | group | subnetNode | subnetNodeGroup => simp [domainOffset, addrEnd, addrLen]

theorem decodedResults_domainOff (f : SelFields) (s : State) :
    (decodedResults f s).domainOff = BitVec.ofNat 5 (domainOffset s.params (variantOf f)) := rfl

/-- `DOMAIN_OFF` and `DOMAIN_LEN` hold the offset and the length of the layout, which fit their registers. -/
theorem decodedResults_domainOff_toNat (f : SelFields) (s : State) :
    (decodedResults f s).domainOff.toNat = domainOffset s.params (variantOf f) :=
  Nat.mod_eq_of_lt ((domainOffset_le_eleven _ _).trans_lt (by decide))

theorem decodedResults_domainLen_toNat (f : SelFields) (s : State) :
    (decodedResults f s).domainLen.toNat = domainBytes f.domainLengthCode :=
  Nat.mod_eq_of_lt ((domainBytes_le_six _).trans_lt (by decide))

theorem decodedResults_domain (f : SelFields) (s : State) :
    (decodedResults f s).domain =
      domainValue (bufByte s) (20 + domainOffset s.params (variantOf f)) f.domainLengthCode :=
  memRead_domainBytes_setWidth s _ _

theorem decodedResults_payloadLen_toNat {s : State} {f : SelFields}
    (fits : 20 + headerNeed s.params (variantOf f) f.domainLengthCode ≤ s.n.toNat) :
    (decodedResults f s).payloadLen.toNat =
      s.n.toNat - (20 + domainOffset s.params (variantOf f) + domainBytes f.domainLengthCode) := by
  rw [← decodedResults_payloadOff_toNat fits]
  exact Nat.eq_sub_of_add_eq' (decodedResults_payload_end fits)

/-- Settles O45. -/
theorem payloadIsTheRest : Obligations.PayloadIsTheRest := by
  intro s t hc hstep hv
  obtain ⟨fits, rfl⟩ := step_completing_of_valid hc hstep hv
  rw [neededLength_eq] at fits
  have off := decodedResults_payloadOff_toNat fits
  have len := decodedResults_payloadLen_toNat fits
  refine ⟨?_, off.trans_le (domain_end_le_n fits), ?_, rfl⟩
  · rw [off, decodedResults_domainOff_toNat, decodedResults_domainLen_toNat]
  · rw [len, off]

/-! ### The check before each read -/

/-- The check before each read fails when some read ends beyond the datagram. -/
theorem readsFit_eq_false_iff (n : Nat) (ends : List Nat) : readsFit n ends = false ↔ ∃ e ∈ ends, n < 20 + e := by
  induction ends with
  | nil => simp [readsFit]
  | cons e es ih =>
    by_cases h : n < 20 + e
    · simp [readsFit, h]
    · simp [readsFit, h, ih]

/-- The reads are those of the fixed fields and the address, which end at `addr_end`, and those of the domain. -/
theorem mem_readEnds_iff (compat : Bool) (af : BitVec 2) (mode : Bool) (code : BitVec 2) (e : Nat) :
    e ∈ readEnds compat af mode code ↔
      (1 ≤ e ∧ e ≤ (layoutEnds compat af mode).1) ∨
      ((layoutEnds compat af mode).2 < e ∧ e ≤ (layoutEnds compat af mode).2 + dlen code) := by
  obtain ⟨five, -, -⟩ := layoutEnds_le compat af mode
  simp only [readEnds, List.mem_append, List.mem_cons, List.not_mem_nil, or_false, List.mem_map, List.mem_range]
  constructor
  · rintro ((h | ⟨i, hi, rfl⟩) | ⟨i, hi, rfl⟩) <;> omega
  · rintro (⟨h1, h2⟩ | ⟨h1, h2⟩)
    · obtain h4 | h4 := Nat.lt_or_ge 4 e
      · exact .inl (.inr ⟨e - 5, by omega, by omega⟩)
      · exact .inl (.inl (by omega))
    · exact .inr ⟨e - (layoutEnds compat af mode).2 - 1, by omega, by omega⟩

/-- The domain starts at the end of the address, or inside it. -/
theorem layoutEnds_snd_le_fst (compat : Bool) (af : BitVec 2) (mode : Bool) :
    (layoutEnds compat af mode).2 ≤ (layoutEnds compat af mode).1 := by
  decide +revert

/-- The furthest read ends exactly at the needed length; an empty domain has no read, and needs no byte beyond the address. -/
theorem exists_readEnd_beyond_iff (compat : Bool) (af : BitVec 2) (mode : Bool) (code : BitVec 2) (n : Nat) :
    (∃ e ∈ readEnds compat af mode code, n < 20 + e) ↔ n < 20 + need compat af mode code := by
  obtain ⟨five, -, -⟩ := layoutEnds_le compat af mode
  have inside := layoutEnds_snd_le_fst compat af mode
  simp only [mem_readEnds_iff, need]
  constructor
  · rintro ⟨e, he, h⟩
    omega
  · intro h
    obtain ha | ha := Nat.lt_or_ge n (20 + (layoutEnds compat af mode).1)
    · exact ⟨_, .inl ⟨by omega, le_rfl⟩, ha⟩
    · exact ⟨(layoutEnds compat af mode).2 + dlen code, .inr ⟨by omega, le_rfl⟩, by omega⟩

/-- Settles O52. A datagram below 24 bytes is below every needed length. -/
theorem stepwiseCheckAgrees : Obligations.StepwiseCheckAgrees := by
  intro compat af mode code n
  have five := five_le_need compat af mode code
  rw [readsFit_eq_false_iff, exists_readEnd_beyond_iff]
  omega

/-! ### The setting of `AF3_SOURCE_COMPAT` in `Decode()` -/

theorem layoutEnds_compat_of_ne_three {af : BitVec 2} (h : af ≠ 3#2) (compat : Bool) (mode : Bool) :
    layoutEnds compat af mode = layoutEnds false af mode := by
  decide +revert

/-- Outside address-format 3 the setting does not reach the decode. -/
theorem decodePacket_compat_of_ne_three {p : Params} {n : Nat} {b : Nat → Byte}
    (h : (b 21).extractLsb' 2 2 ≠ 3#2) (compat : Bool) :
    decodePacket { p with af3SourceCompat := compat } n b = decodePacket { p with af3SourceCompat := false } n b := by
  simp only [decodePacket, need, layoutEnds_compat_of_ne_three h compat]

/-- A `Decode()` that succeeds answers the results behind its three length checks. -/
theorem eq_of_checks_eq_ok {c₁ c₂ c₃ : Prop} [Decidable c₁] [Decidable c₂] [Decidable c₃] {e₁ e₂ e₃ : DecodeError}
    {x r : Results}
    (h : (if c₁ then .error e₁ else if c₂ then .error e₂ else if c₃ then .error e₃ else .ok x) =
      (.ok r : Except DecodeError Results)) : r = x := by
  split_ifs at h
  exact (Except.ok.inj h).symm

/-- Settles O48. -/
theorem compatChangesOnlyDomainAndPayload : Obligations.CompatChangesOnlyDomainAndPayload := by
  intro p n b r r' h h'
  have hr := eq_of_checks_eq_ok h
  have hr' := eq_of_checks_eq_ok h'
  refine ⟨by subst hr hr'; rfl, fun h3 => ?_⟩
  have format : (b 21).extractLsb' 2 2 ≠ 3#2 := by subst hr; exact h3
  exact Except.ok.inj (h'.symm.trans ((decodePacket_compat_of_ne_three format true).trans h))

/-! ### The setting of `AF3_SOURCE_COMPAT` at the completing edge -/

/-- The same block in one setting of `AF3_SOURCE_COMPAT`. -/
def withCompat (compat : Bool) (s : State) : State :=
  { s with params := { s.params with af3SourceCompat := compat } }

@[simp] theorem withCompat_n (compat : Bool) (s : State) : (withCompat compat s).n = s.n := rfl
@[simp] theorem withCompat_af3SourceCompat (compat : Bool) (s : State) :
    (withCompat compat s).params.af3SourceCompat = compat := rfl
@[simp] theorem bufByte_withCompat (compat : Bool) (s : State) (a : Nat) :
    bufByte (withCompat compat s) a = bufByte s a := rfl
@[simp] theorem hdrByte_withCompat (compat : Bool) (s : State) (i : Nat) :
    hdrByte (withCompat compat s) i = hdrByte s i := rfl
@[simp] theorem selWord_withCompat (compat : Bool) (s : State) : selWord (withCompat compat s) = selWord s := rfl
@[simp] theorem memRead_withCompat (compat : Bool) (s : State) (a k : Nat) :
    memRead (withCompat compat s) a k = memRead s a k :=
  memRead_congr (show (withCompat compat s).buf = s.buf from rfl) a k
@[simp] theorem destinationOf_withCompat (compat : Bool) (f : SelFields) (s : State) :
    destinationOf f (withCompat compat s) = destinationOf f s := destinationOf_congr f rfl

theorem completing_withCompat {s : State} (hc : Completing s) (compat : Bool) : Completing (withCompat compat s) := hc

/-- The results in two settings differ at most in the domain and payload registers: all others are read from the bytes and
the selector fields alone. -/
theorem decodedResults_withCompat (f : SelFields) (c d : Bool) (s : State) :
    decodedResults f (withCompat c s) = { decodedResults f (withCompat d s) with
      domainOff := (decodedResults f (withCompat c s)).domainOff
      domain := (decodedResults f (withCompat c s)).domain
      payloadOff := (decodedResults f (withCompat c s)).payloadOff
      payloadLen := (decodedResults f (withCompat c s)).payloadLen } := by
  simp [decodedResults]

theorem completing_short_withCompat {s t : State} {compat : Bool} (hc : Completing s)
    (ht : step (withCompat compat s) = .next t) (short : s.n.toNat < neededLength (withCompat compat s)) :
    t = withCompat compat (afterError (if s.n.toNat < 20 then 1#2 else 2#2) (cycled s)) :=
  Host.Outcome.next.inj (ht.symm.trans (step_completing_short (completing_withCompat hc compat) short))

theorem completing_fits_withCompat {s t : State} {compat : Bool} (hc : Completing s)
    (ht : step (withCompat compat s) = .next t) (fits : neededLength (withCompat compat s) ≤ s.n.toNat) :
    t = { statusCompleted (cycled (withCompat compat s)) with
      res := decodedResults (unpackSel (selWord s)) (withCompat compat s) } :=
  Host.Outcome.next.inj (ht.symm.trans (step_completing_fits (completing_withCompat hc compat) fits))

/-! Outside address-format 3. -/

theorem neededLength_withCompat_of_ne_three {s : State} (h : (bufByte s 21).extractLsb' 2 2 ≠ 3#2) (compat : Bool) :
    neededLength (withCompat compat s) = neededLength (withCompat false s) := by
  simp [neededLength, need, layoutEnds_compat_of_ne_three h compat]

theorem decodedResults_withCompat_of_ne_three {f : SelFields} (h : f.addressFormat ≠ 3#2) (compat : Bool) (s : State) :
    decodedResults f (withCompat compat s) = decodedResults f (withCompat false s) := by
  simp [decodedResults, domainOffset_eq_layoutEnds, layoutEnds_compat_of_ne_three h compat]

/-- Outside address-format 3 the two settings complete alike. -/
theorem completing_compat_of_ne_three {s t t' : State} (hc : Completing s)
    (ht : step (withCompat false s) = .next t) (ht' : step (withCompat true s) = .next t')
    (h : (bufByte s 21).extractLsb' 2 2 ≠ 3#2) : t' = { t with params := t'.params } := by
  have same := neededLength_withCompat_of_ne_three h true
  obtain short | fits := Nat.lt_or_ge s.n.toNat (neededLength (withCompat false s))
  · obtain rfl := completing_short_withCompat hc ht short
    obtain rfl := completing_short_withCompat hc ht' (short.trans_eq same.symm)
    rfl
  · obtain rfl := completing_fits_withCompat hc ht fits
    obtain rfl := completing_fits_withCompat hc ht' (same.trans_le fits)
    rw [decodedResults_withCompat_of_ne_three (by rwa [unpackSel_selWord_addressFormat]) true]
    rfl

/-! In address-format 3. -/

/-- The `BUF` index at which the domain of a neuron id datagram starts (30_encoding.md R69). -/
def neuronDomainIndex (compat : Bool) : Nat := if compat then 25 else 31

theorem variantOf_selWord_of_three {s : State} (h : (bufByte s 21).extractLsb' 2 2 = 3#2) :
    variantOf (unpackSel (selWord s)) = .neuronId :=
  variantOf_neuronId ((unpackSel_selWord_addressFormat s).trans h)

theorem neededLength_withCompat_of_three {s : State} (h : (bufByte s 21).extractLsb' 2 2 = 3#2) (compat : Bool) :
    neededLength (withCompat compat s) = if compat then 31 else 31 + dlen ((bufByte s 21).extractLsb' 0 2) := by
  rw [neededLength_eq, selWord_withCompat, variantOf_selWord_of_three h, twenty_add_headerNeed_neuronId,
    unpackSel_selWord_domainLengthCode, withCompat_af3SourceCompat]

theorem domainOffset_withCompat_neuronId (compat : Bool) (s : State) :
    20 + domainOffset (withCompat compat s).params .neuronId = neuronDomainIndex compat := by
  cases compat <;> rfl

/-- What a successful decode of a neuron id datagram writes into the registers that the setting reaches. -/
theorem decodedResults_of_three {s : State} {compat : Bool} (h : (bufByte s 21).extractLsb' 2 2 = 3#2)
    (fits : neededLength (withCompat compat s) ≤ s.n.toNat) :
    (decodedResults (unpackSel (selWord s)) (withCompat compat s)).domainOff = (if compat then 5#5 else 11#5) ∧
    (decodedResults (unpackSel (selWord s)) (withCompat compat s)).domain =
      domainValue (bufByte s) (neuronDomainIndex compat) ((bufByte s 21).extractLsb' 0 2) ∧
    (decodedResults (unpackSel (selWord s)) (withCompat compat s)).payloadOff.toNat =
      neuronDomainIndex compat + dlen ((bufByte s 21).extractLsb' 0 2) ∧
    (decodedResults (unpackSel (selWord s)) (withCompat compat s)).payloadLen.toNat =
      s.n.toNat - (neuronDomainIndex compat + dlen ((bufByte s 21).extractLsb' 0 2)) := by
  have variant := variantOf_selWord_of_three h
  rw [neededLength_eq, selWord_withCompat] at fits
  refine ⟨?_, ?_, ?_, ?_⟩
  · rw [decodedResults_domainOff, variant, ofNat_domainOffset_neuronId, withCompat_af3SourceCompat]
  · rw [decodedResults_domain, variant, domainOffset_withCompat_neuronId, unpackSel_selWord_domainLengthCode]
    rfl
  · rw [decodedResults_payloadOff_toNat fits, variant, domainOffset_withCompat_neuronId, domainBytes_eq_dlen,
      unpackSel_selWord_domainLengthCode]
  · rw [decodedResults_payloadLen_toNat fits, variant, domainOffset_withCompat_neuronId, domainBytes_eq_dlen,
      unpackSel_selWord_domainLengthCode, withCompat_n]

theorem eq_ofNat_of_toNat_eq {w m : Nat} {x : BitVec w} (h : x.toNat = m) : x = BitVec.ofNat w m := by
  rw [← h, BitVec.ofNat_toNat, BitVec.setWidth_eq]

/-- The results of a neuron id datagram in the literal setting, from those in the corrected one. -/
theorem decodedResults_literal_of_three {s : State} (h : (bufByte s 21).extractLsb' 2 2 = 3#2)
    (fits : neededLength (withCompat true s) ≤ s.n.toNat) :
    decodedResults (unpackSel (selWord s)) (withCompat true s) =
      { decodedResults (unpackSel (selWord s)) (withCompat false s) with
        domainOff := 5#5
        domain := domainValue (bufByte s) 25 ((bufByte s 21).extractLsb' 0 2)
        payloadOff := BitVec.ofNat 16 (25 + dlen ((bufByte s 21).extractLsb' 0 2))
        payloadLen := BitVec.ofNat 16 (s.n.toNat - (25 + dlen ((bufByte s 21).extractLsb' 0 2))) } := by
  obtain ⟨off, domain, payloadOff, payloadLen⟩ := decodedResults_of_three h fits
  rw [decodedResults_withCompat _ true false, off, domain, eq_ofNat_of_toNat_eq payloadOff, eq_ofNat_of_toNat_eq payloadLen]
  rfl

/-- A neuron id datagram that holds the corrected layout decodes in both settings. -/
theorem completing_compat_both_fit {s t t' : State} (hc : Completing s)
    (ht : step (withCompat false s) = .next t) (ht' : step (withCompat true s) = .next t')
    (h : (bufByte s 21).extractLsb' 2 2 = 3#2) (fits : 31 + dlen ((bufByte s 21).extractLsb' 0 2) ≤ s.n.toNat) :
    t.valid = true ∧ t.err = 0#2 ∧ t.res.domainOff = 11#5 ∧
    t.res.domain = domainValue (bufByte s) 31 ((bufByte s 21).extractLsb' 0 2) ∧
    t.res.payloadOff.toNat = 31 + dlen ((bufByte s 21).extractLsb' 0 2) ∧
    t.res.payloadLen.toNat = s.n.toNat - (31 + dlen ((bufByte s 21).extractLsb' 0 2)) ∧
    t' = { t with
      params := t'.params
      res := { t.res with
        domainOff := 5#5
        domain := domainValue (bufByte s) 25 ((bufByte s 21).extractLsb' 0 2)
        payloadOff := BitVec.ofNat 16 (25 + dlen ((bufByte s 21).extractLsb' 0 2))
        payloadLen := BitVec.ofNat 16 (s.n.toNat - (25 + dlen ((bufByte s 21).extractLsb' 0 2))) } } := by
  have corrected := (neededLength_withCompat_of_three h false).trans_le fits
  have literal := (neededLength_withCompat_of_three h true).trans_le ((Nat.le_add_right 31 _).trans fits)
  obtain rfl := completing_fits_withCompat hc ht corrected
  obtain rfl := completing_fits_withCompat hc ht' literal
  obtain ⟨off, domain, payloadOff, payloadLen⟩ := decodedResults_of_three h corrected
  refine ⟨rfl, rfl, off, domain, payloadOff, payloadLen, ?_⟩
  rw [decodedResults_literal_of_three h literal]
  rfl

/-- A neuron id datagram that holds the literal layout alone. -/
theorem completing_compat_literal_fits {s t t' : State} (hc : Completing s)
    (ht : step (withCompat false s) = .next t) (ht' : step (withCompat true s) = .next t')
    (h : (bufByte s 21).extractLsb' 2 2 = 3#2) (fits : 31 ≤ s.n.toNat)
    (short : s.n.toNat < 31 + dlen ((bufByte s 21).extractLsb' 0 2)) :
    t.valid = false ∧ t.err = 2#2 ∧ t.res = Results.zero ∧ t'.valid = true ∧ t'.err = 0#2 ∧
    t'.res.domainOff = 5#5 ∧ t'.res.domain = domainValue (bufByte s) 25 ((bufByte s 21).extractLsb' 0 2) ∧
    t'.res.payloadOff.toNat = 25 + dlen ((bufByte s 21).extractLsb' 0 2) ∧
    t'.res.payloadLen.toNat = s.n.toNat - (25 + dlen ((bufByte s 21).extractLsb' 0 2)) := by
  have literal := (neededLength_withCompat_of_three h true).trans_le fits
  obtain rfl := completing_short_withCompat hc ht (short.trans_eq (neededLength_withCompat_of_three h false).symm)
  obtain rfl := completing_fits_withCompat hc ht' literal
  exact ⟨rfl, if_neg (by omega), rfl, rfl, rfl, decodedResults_of_three h literal⟩

/-- A neuron id datagram that is too short for both settings. -/
theorem completing_compat_both_short {s t t' : State} (hc : Completing s)
    (ht : step (withCompat false s) = .next t) (ht' : step (withCompat true s) = .next t')
    (h : (bufByte s 21).extractLsb' 2 2 = 3#2) (short : s.n.toNat < 31) :
    t.valid = false ∧ t.err = (if s.n.toNat < 20 then 1#2 else 2#2) ∧ t.res = Results.zero ∧
    t' = { t with params := t'.params } := by
  have corrected := (short.trans_le (Nat.le_add_right 31 _)).trans_eq (neededLength_withCompat_of_three h false).symm
  obtain rfl := completing_short_withCompat hc ht corrected
  obtain rfl := completing_short_withCompat hc ht' (short.trans_eq (neededLength_withCompat_of_three h true).symm)
  exact ⟨rfl, rfl, rfl, rfl⟩

/-- Settles O53. -/
theorem compatSettingAtCompletion : Obligations.CompatSettingAtCompletion := by
  rintro s k hc rfl
  obtain ⟨t, ht, -⟩ := cycle_answers (withCompat false s)
  obtain ⟨t', ht', -⟩ := cycle_answers (withCompat true s)
  exact ⟨t, t', ht, ht', completing_compat_of_ne_three hc ht ht', fun h =>
    ⟨completing_compat_both_fit hc ht ht' h, completing_compat_literal_fits hc ht ht' h,
      completing_compat_both_short hc ht ht' h⟩⟩

end Sys2Proof.Machine

/-! Proofs of the statements of 42_host_control.md: the host's commands as instructions (O18, O19, O23, O24), the edges of an idle
block (O10, O17, O22) and of a busy one (O20, O21, O26), the whole edge as `Step(state, in)` (O13), what holds between decodes
(O27, O28), and a decode from its acceptance to its outcome (O14, O15). -/

namespace Sys2Proof.Machine

open Sys2Proof.Safety

/-! ### The commands as instructions -/

/-- Settles O19. -/
theorem effectiveLengthIsMin : Obligations.EffectiveLengthIsMin := effectiveLen_toNat

theorem exec_decode_busy (we : Bool) (len : Half) {s : State} (hb : s.busy = true) :
    exec (.decode we len) s = .next s := by
  simp [exec, execDecode, hb]

/-- Settles O18. -/
theorem decodeInstruction : Obligations.DecodeInstruction :=
  fun we len _ => ⟨exec_decode_idle we len, exec_decode_busy we len⟩

/-- The write port reaches `BUF` and nothing else. -/
theorem writePort_frame (a : Half) (v : Byte) (s : State) :
    writePort a v s = { s with buf := (writePort a v s).buf } := by
  obtain ⟨_, _, h⟩ | ⟨_, h⟩ := writePort_cases a v s
  · rw [h]
    rfl
  · rw [h]

theorem writePort_of_idle (a : Half) (v : Byte) {s : State} (hb : s.busy = false) :
    writePort a v s = if a.toNat < s.params.maxLen then memWrite a.toNat v s else s := by
  rw [writePort, hb, if_neg Bool.false_ne_true]

theorem writePort_dropped {a : Half} (v : Byte) {s : State} (h : s.busy = true ∨ s.params.maxLen ≤ a.toNat) :
    writePort a v s = s := by
  obtain ⟨hb, ha, -⟩ | ⟨-, hw⟩ := writePort_cases a v s
  · simp [hb, Nat.not_le.2 ha] at h
  · exact hw

/-- An accepted write to an index of `BUF`: its byte reads back, every other byte as before. -/
theorem bufByte_writePort_of_idle {a : Half} (v : Byte) {s : State} (hb : s.busy = false) (ha : a.toNat < s.params.maxLen) :
    bufByte (writePort a v s) a.toNat = v ∧ ∀ i, i ≠ a.toNat → bufByte (writePort a v s) i = bufByte s i := by
  have written : bufByte (writePort a v s) = bufByte (memWrite a.toNat v s) :=
    bufByte_congr ((writePort_buf_of_idle a v hb).trans (if_pos ha))
  rw [written]
  exact ⟨bufByte_memWrite_same _ _ _, fun _ hi => bufByte_memWrite_other _ _ hi⟩

/-- Settles O23. -/
theorem bufWriteInstruction : Obligations.BufWriteInstruction := fun a v s =>
  ⟨fun hb ha => ⟨_, exec_bufWrite a v s, writePort_frame a v s, bufByte_writePort_of_idle v hb ha⟩,
    fun h => by rw [exec_bufWrite, writePort_dropped v h]⟩

/-- Settles O24. -/
theorem bufReadInstruction : Obligations.BufReadInstruction := exec_bufRead

/-! ### The edges of an idle block -/

@[simp] theorem cycled_params (s : State) : (cycled s).params = s.params := rfl

theorem execAll_singleton (i : Instr) : execAll [i] = exec i := by
  funext s
  rw [execAll_cons]
  cases exec i s <;> rfl

/-- Settles O10. Each value of the strobes leaves one list of rows. -/
theorem idleStepRunsCommand : Obligations.IdleStepRunsCommand := by
  intro s hr hb
  have rows : step s = _ := cycle_idle hr hb
  rw [decodeRows_cmdWord, execAll_cons] at rows
  refine ⟨fun hs => ?_, fun hs hw => ?_, fun hs hw => ?_⟩
  · rw [rows, if_pos hs, execAll_singleton]
  · rw [rows, hs, if_neg Bool.false_ne_true, if_pos hw, execAll_singleton]
  · rw [rows, hs, hw, if_neg Bool.false_ne_true, if_neg Bool.false_ne_true]
    rfl

/-- Settles O17. -/
theorem decodeAcceptedEdge : Obligations.DecodeAcceptedEdge :=
  fun _ ⟨hr, hb, hs⟩ => cycle_idle_start hr hb hs

theorem step_write {s : State} (hr : (portsNow s).rst = false) (hb : s.busy = false) (hs : (portsNow s).start = false)
    (hw : (portsNow s).bufWe = true) :
    step s = .next (writePort (portsNow s).bufWaddr (portsNow s).bufWdata (clearDone (cycled s))) :=
  cycle_idle_write hr hb hs hw

/-- Settles O22. -/
theorem bufWriteEdge : Obligations.BufWriteEdge := by
  intro s hr hb hs hw
  have idle : (clearDone (cycled s)).busy = false := hb
  refine ⟨_, step_write hr hb hs hw, writePort_frame _ _ _, bufByte_writePort_of_idle _ idle, fun ha => ?_⟩
  have dropped : writePort _ (portsNow s).bufWdata (clearDone (cycled s)) = clearDone (cycled s) :=
    writePort_dropped _ (.inr ha)
  rw [dropped]
  rfl

/-! ### `Decode()` as one function -/

/-- The three length checks of `Decode()` on a datagram below its needed length: the envelope's error first (60_exceptions.md
R205). -/
theorem checks_short {n len : Nat} (x : Results) (h : n < len) :
    (if n < 20 then .error .truncatedEnvelope else if n < 24 then .error .truncatedHeader
      else if n < len then .error .truncatedHeader else .ok x : Except DecodeError Results) =
      .error (if n < 20 then .truncatedEnvelope else .truncatedHeader) := by
  rw [if_pos h, ite_self]
  split <;> rfl

theorem checks_fit {n len : Nat} (x : Results) (h24 : 24 ≤ n) (h : len ≤ n) :
    (if n < 20 then .error .truncatedEnvelope else if n < 24 then .error .truncatedHeader
      else if n < len then .error .truncatedHeader else .ok x : Except DecodeError Results) = .ok x := by
  rw [if_neg (by omega), if_neg (by omega), if_neg (by omega)]

theorem decodePacket_short {s : State} (short : s.n.toNat < neededLength s) :
    decodePacket s.params s.n.toNat (bufByte s) =
      .error (if s.n.toNat < 20 then .truncatedEnvelope else .truncatedHeader) :=
  checks_short _ short

/-- The destination registers, each as `Decode()` gives it from the address format and the mode flag. -/
theorem destinationOf_fields (f : SelFields) (s : State) :
    destinationOf f s =
      { variant := variantOf f
        dstSubnet := if f.addressFormat = 1#2 then 0#8 else bufByte s 24
        dstNode := if f.addressFormat == 2#2 then (bufByte s 25).extractLsb' 0 7 else 0#7
        dstGroup := if f.addressFormat = 1#2 then bufByte s 24 else 0#8
        group := if f.addressFormat == 2#2 && !f.modeFlag then bufByte s 26 else 0#8
        groupMember := if f.addressFormat == 2#2 && !f.modeFlag then bufByte s 27 else 0#8
        neuronId := if f.addressFormat = 3#2 then
          bufByte s 25 ++ bufByte s 26 ++ bufByte s 27 ++ bufByte s 28 ++ bufByte s 29 ++ bufByte s 30 else 0#48 } := by
  rcases two_bit_cases f.addressFormat with h | h | h | h
  · simp [destinationOf, variantOf_subnet h, unpopulated, h, hdrByte]
  · simp [destinationOf, variantOf_group h, unpopulated, h, hdrByte]
  · cases m : f.modeFlag
    · simp [destinationOf, variantOf_subnetNodeGroup h m, unpopulated, h, hdrByte, nodeField]
    · simp [destinationOf, variantOf_subnetNode h m, unpopulated, h, hdrByte, nodeField]
  · simp [destinationOf, variantOf_neuronId h, unpopulated, h, hdrByte, memRead_six]

/-- `ADDR_VARIANT` from the address format and the mode flag (41_lon_header.md R131). -/
theorem variantCode_variantOf (f : SelFields) :
    variantCode (variantOf f) =
      if f.addressFormat = 0#2 then 0#3 else if f.addressFormat = 1#2 then 1#3
      else if f.addressFormat = 2#2 then (if f.modeFlag then 2#3 else 3#3) else 4#3 := by
  unfold variantOf
  split_ifs <;> rfl

/-- On a datagram that is long enough `Decode()` answers the results that the rows and the common writes give. -/
theorem decodePacket_fits {s : State} (fits : neededLength s ≤ s.n.toNat) :
    decodePacket s.params s.n.toNat (bufByte s) = .ok (decodedResults (unpackSel (selWord s)) s) := by
  have need := twenty_five_le_neededLength s
  have payloadLen := eq_ofNat_of_toNat_eq (decodedResults_payloadLen_toNat ((neededLength_eq s).symm.trans_le fits))
  refine (checks_fit _ (by omega) fits).trans (congrArg Except.ok ?_)
  simp only [decodedResults, domainOffset_eq_layoutEnds, domainBytes_eq_dlen] at payloadLen
  simp only [decodedResults, payloadLen, destinationOf_fields, variantCode_variantOf, memRead_domainBytes_setWidth, memRead_one,
    memRead_two, memRead_four, domainOffset_eq_layoutEnds, domainBytes_eq_dlen]
  rw [selWord_eq, unpackSel_append]
  rfl

/-- The outcome of `Decode()` is what the completing edge of the machine answers. -/
theorem completeDecode_eq_completed (s : State) : completeDecode s = .next (completed s) := by
  obtain short | fits := Nat.lt_or_ge s.n.toNat (neededLength s)
  · rw [completeDecode_short rfl (by rwa [← neededLength_eq]), completed, decodePacket_short short]
    rfl
  · rw [completeDecode_fits rfl (by rwa [← neededLength_eq]), completed, decodePacket_fits fits]
    rfl

theorem domainValue_congr {b c : Nat → Byte} {a : Nat} {code : BitVec 2} (h : ∀ i < dlen code, b (a + i) = c (a + i)) :
    domainValue b a code = domainValue c a code := by
  rcases two_bit_cases code with rfl | rfl | rfl | rfl
  · rfl
  · exact congrArg (0#40 ++ ·) (h 0 (by decide))
  · have h0 : b a = c a := h 0 (by decide)
    simp [domainValue, h0, h 1 (by decide), h 2 (by decide)]
  · have h0 : b a = c a := h 0 (by decide)
    simp [domainValue, h0, h 1 (by decide), h 2 (by decide), h 3 (by decide), h 4 (by decide), h 5 (by decide)]

/-- The header bytes the address layouts read: `H[4]` in all of them, `H[5]` in address-format 2, `H[6]` and `H[7]` there with the
mode flag clear, and `H[5]` to `H[10]` in address-format 3 (41_lon_header.md R132 to R136). -/
theorem address_bytes_agree {compat : Bool} {af : BitVec 2} {mode : Bool} {b c : Nat → Byte}
    (h : ∀ a < 20 + (layoutEnds compat af mode).1, b a = c a) :
    b 24 = c 24 ∧ (af = 2#2 → b 25 = c 25) ∧ (af = 2#2 → mode = false → b 26 = c 26 ∧ b 27 = c 27) ∧
      (af = 3#2 → ∀ a < 31, b a = c a) := by
  obtain ⟨five, -, -⟩ := layoutEnds_le compat af mode
  refine ⟨h 24 (by omega), ?_, ?_, ?_⟩
  · rintro rfl
    exact h 25 (by cases mode <;> simp [layoutEnds])
  · rintro rfl rfl
    exact ⟨h 26 (by simp [layoutEnds]), h 27 (by simp [layoutEnds])⟩
  · rintro rfl
    exact h

/-- Below 24 bytes `Decode()` fails whatever the bytes are. -/
theorem decodePacket_of_lt_24 {p : Params} {n : Nat} (b : Nat → Byte) (h : n < 24) :
    decodePacket p n b = .error (if n < 20 then .truncatedEnvelope else .truncatedHeader) :=
  checks_short _ (h.trans_le (Nat.add_le_add_left (Nat.le_of_succ_le (five_le_need _ _ _ _)) 20))

/-- `Decode()` is a function of the bytes below `N` (20_memory.md R51): from 24 bytes on these hold the selector fields, and on a
datagram that is long enough all that its layout reads. -/
theorem decodePacket_congr {p : Params} {n : Nat} {b c : Nat → Byte} (h : ∀ a < n, b a = c a) :
    decodePacket p n b = decodePacket p n c := by
  obtain h24 | h24 := Nat.lt_or_ge n 24
  · rw [decodePacket_of_lt_24 b h24, decodePacket_of_lt_24 c h24]
  have fixed : ∀ a < 24, b a = c a := fun a ha => h a (by omega)
  have needed : 20 + need p.af3SourceCompat ((b 21).extractLsb' 2 2) ((b 23).getLsbD 7) ((b 21).extractLsb' 0 2) =
      20 + need p.af3SourceCompat ((c 21).extractLsb' 2 2) ((c 23).getLsbD 7) ((c 21).extractLsb' 0 2) := by
    rw [fixed 21 (by decide), fixed 23 (by decide)]
  obtain short | fits := Nat.lt_or_ge n
    (20 + need p.af3SourceCompat ((c 21).extractLsb' 2 2) ((c 23).getLsbD 7) ((c 21).extractLsb' 0 2))
  · exact (checks_short _ (short.trans_eq needed.symm)).trans (checks_short _ short).symm
  · have domainEnd := domain_end_le_need p.af3SourceCompat ((c 21).extractLsb' 2 2) ((c 23).getLsbD 7)
      ((c 21).extractLsb' 0 2)
    have domain := domainValue_congr (code := (c 21).extractLsb' 0 2)
      (a := 20 + (layoutEnds p.af3SourceCompat ((c 21).extractLsb' 2 2) ((c 23).getLsbD 7)).2)
      fun i hi => h _ (by omega)
    obtain ⟨first, node, member, neuron⟩ := address_bytes_agree (compat := p.af3SourceCompat)
      (af := (c 21).extractLsb' 2 2) (mode := (c 23).getLsbD 7) fun a ha => h a (by rw [need] at fits; omega)
    refine (checks_fit _ h24 (needed.trans_le fits)).trans (.trans (congrArg Except.ok ?_) (checks_fit _ h24 fits).symm)
    simp +contextual [-BitVec.getLsbD_eq_getElem, fixed, domain, first, node, member, neuron]

/-! ### What a completing edge writes -/

@[simp] theorem completed_params (s : State) : (completed s).params = s.params := by unfold completed; split <;> rfl
@[simp] theorem completed_inputs (s : State) : (completed s).inputs = s.inputs := by unfold completed; split <;> rfl
@[simp] theorem completed_busy (s : State) : (completed s).busy = false := by unfold completed; split <;> rfl
@[simp] theorem completed_cnt (s : State) : (completed s).cnt = 0 := by unfold completed; split <;> rfl
@[simp] theorem completed_n (s : State) : (completed s).n = s.n := by unfold completed; split <;> rfl
@[simp] theorem completed_done (s : State) : (completed s).done = true := by unfold completed; split <;> rfl
@[simp] theorem completed_buf (s : State) : (completed s).buf = s.buf := by unfold completed; split <;> rfl

/-- The outcome of a completing edge is that of `Decode()` over any bytes that agree with `BUF` below `N`. -/
theorem completed_outcome {s : State} {b : Nat → Byte} (h : ∀ a < s.n.toNat, b a = bufByte s a) :
    match decodePacket s.params s.n.toNat b with
    | .ok r => (completed s).valid = true ∧ (completed s).err = 0#2 ∧ (completed s).res = r
    | .error e => (completed s).valid = false ∧ (completed s).err = errCode e ∧ (completed s).res = Results.zero := by
  rw [decodePacket_congr h, completed]
  cases decodePacket s.params s.n.toNat (bufByte s) with
  | ok | error => exact ⟨rfl, rfl, rfl⟩

/-! ### The edges of a busy block, and reset -/

theorem step_reset {s : State} (hr : (portsNow s).rst = true) : step s = .next (applyReset (cycled s)) :=
  cycle_reset hr

theorem step_completing_eq_completed {s : State} (hc : Completing s) :
    step s = .next (completed (clearDone (cycled s))) :=
  (step_completing hc).trans (completeDecode_eq_completed _)

theorem step_busy {s : State} (hr : (portsNow s).rst = false) (hb : s.busy = true) :
    step s = progress (clearDone (cycled s)) :=
  cycle_busy hr hb

theorem step_busy_countDown {s : State} (hr : (portsNow s).rst = false) (hb : s.busy = true) (hc : s.cnt ≠ 1) :
    step s = .next (countDown (clearDone (cycled s))) :=
  (step_busy hr hb).trans (if_neg hc)

/-- Settles O26. -/
theorem countdownEdge : Obligations.CountdownEdge := by
  intro s hr hb hc
  have positive : cntLessOne (cntWidth s.params.decodeLatency) s.cnt = s.cnt - 1 := if_neg (by omega)
  rw [step_busy_countDown hr hb (by omega), ← positive]
  rfl

/-- The bookkeeping of a cycle looks at no port but the index read. -/
theorem cycled_congr (s : State) {p q : Ports} (rest : List Ports) (ha : p.bufRaddr = q.bufRaddr) :
    cycled { s with inputs := p :: rest } = cycled { s with inputs := q :: rest } :=
  congrArg (fun a => { s with inputs := rest, bufRdata := readPort s a }) ha

/-- The edges that do not look at the commands: a reset, and every edge of a busy block. -/
theorem step_ignores_commands {s : State} {p q : Ports} {rest : List Ports} (h : p.rst = true ∨ s.busy = true)
    (hr : p.rst = q.rst) (ha : p.bufRaddr = q.bufRaddr) :
    step { s with inputs := p :: rest } = step { s with inputs := q :: rest } := by
  cases hp : p.rst with
  | true =>
    rw [step_reset (s := { s with inputs := p :: rest }) hp,
      step_reset (s := { s with inputs := q :: rest }) (hr.symm.trans hp), cycled_congr s rest ha]
  | false =>
    have hb : s.busy = true := by simpa [hp] using h
    rw [step_busy (s := { s with inputs := p :: rest }) hp hb,
      step_busy (s := { s with inputs := q :: rest }) (hr.symm.trans hp) hb, cycled_congr s rest ha]

/-- Settles O20. -/
theorem commandsIgnoredWhileBusy : Obligations.CommandsIgnoredWhileBusy :=
  ⟨fun _ _ _ _ hb => step_ignores_commands (.inr hb), fun _ hc =>
    ⟨_, step_completing_eq_completed hc, fun hr hs => ⟨hr, completed_busy _, hs⟩⟩⟩

/-- Settles O21. With `start` on an idle block the edge accepts the decode and reads no other port. -/
theorem droppedWrites : Obligations.DroppedWrites := by
  intro s p rest _ h
  by_cases dropped : p.rst = true ∨ s.busy = true
  · exact step_ignores_commands dropped rfl rfl
  · obtain ⟨hr, hb⟩ : p.rst = false ∧ s.busy = false := by simpa using dropped
    have hs : p.start = true := by simpa [hr, hb] using h
    exact (cycle_idle_start (s := { s with inputs := p :: rest }) hr hb hs).trans
      (cycle_idle_start (s := { s with inputs := { p with bufWe := false } :: rest }) hr hb hs).symm

/-! ### The whole edge -/

/-- `Step(state, in)` of Safety.lean, its branches by the names of the machine's operations. -/
theorem edge_portsNow (s : State) :
    edge s (portsNow s) =
      if (portsNow s).rst then applyReset (cycled s)
      else if s.busy then
        if s.cnt = 1 then completed (clearDone (cycled s)) else countDown (clearDone (cycled s))
      else if (portsNow s).start then acceptDecode (portsNow s).len (cycled s)
      else if (portsNow s).bufWe ∧ (portsNow s).bufWaddr.toNat < s.params.maxLen then
        memWrite (portsNow s).bufWaddr.toNat (portsNow s).bufWdata (clearDone (cycled s))
      else clearDone (cycled s) :=
  rfl

/-- Settles O13. The cases are the branches of `Step(state, in)`: reset, completion, countdown, and the commands of an idle
block. -/
theorem stepIsNextStateFunction : Obligations.StepIsNextStateFunction := by
  intro s
  rw [edge_portsNow]
  cases hr : (portsNow s).rst with
  | true => exact step_reset hr
  | false =>
    cases hb : s.busy with
    | true =>
      by_cases hc : s.cnt = 1
      · rw [step_completing_eq_completed ⟨hr, hb, hc⟩, if_pos hc]
        rfl
      · rw [step_busy_countDown hr hb hc, if_neg hc]
        rfl
    | false =>
      cases hs : (portsNow s).start with
      | true => exact decodeAcceptedEdge s ⟨hr, hb, hs⟩
      | false =>
        cases hw : (portsNow s).bufWe with
        | true =>
          have idle : (clearDone (cycled s)).busy = false := hb
          rw [step_write hr hb hs hw, writePort_of_idle _ _ idle]
          by_cases ha : (portsNow s).bufWaddr.toNat < s.params.maxLen <;> simp [ha]
        | false => exact cycle_idle_read hr hb hs hw

/-- An edge that neither resets, accepts nor completes moves `CNT` and `BUF` at most, and `DONE` falls. -/
theorem step_between {s : State} (hr : (portsNow s).rst = false) (ha : ¬ Accepting s) (hc : ¬ Completing s) :
    ∃ cnt buf, step s = .next { clearDone (cycled s) with cnt := cnt, buf := buf } := by
  cases hb : s.busy with
  | true => exact ⟨_, _, step_busy_countDown hr hb fun h => hc ⟨hr, hb, h⟩⟩
  | false =>
    have hs : (portsNow s).start = false := Bool.eq_false_iff.2 fun h => ha ⟨hr, hb, h⟩
    cases hw : (portsNow s).bufWe with
    | true => exact ⟨s.cnt, _, (step_write hr hb hs hw).trans (congrArg _ (writePort_frame _ _ _))⟩
    | false => exact ⟨_, _, cycle_idle_read hr hb hs hw⟩

/-- Settles O28. -/
theorem outcomeHeldBetweenDecodes : Obligations.OutcomeHeldBetweenDecodes := by
  intro s t hstep hr ha hc
  obtain ⟨_, _, held⟩ := step_between hr ha hc
  obtain rfl := Host.Outcome.next.inj (hstep.symm.trans held)
  exact ⟨rfl, rfl, rfl⟩

/-- `DONE` falls at a reset, at an acceptance, and at every edge between. -/
theorem step_done_of_not_completing {s t : State} (hstep : step s = .next t) (hc : ¬ Completing s) : t.done = false := by
  cases hr : (portsNow s).rst with
  | true =>
    obtain rfl := Host.Outcome.next.inj (hstep.symm.trans (cycle_reset hr))
    rfl
  | false =>
    by_cases ha : Accepting s
    · obtain rfl := Host.Outcome.next.inj (hstep.symm.trans (decodeAcceptedEdge s ha))
      rfl
    · obtain ⟨_, _, held⟩ := step_between hr ha hc
      obtain rfl := Host.Outcome.next.inj (hstep.symm.trans held)
      rfl

/-- Settles O27. -/
theorem doneOnlyAfterCompletion : Obligations.DoneOnlyAfterCompletion := by
  intro s t hstep
  by_cases hc : Completing s
  · obtain rfl := Host.Outcome.next.inj (hstep.symm.trans (step_completing_eq_completed hc))
    exact iff_of_true (completed_done _) hc
  · simp [hc, step_done_of_not_completing hstep hc]

/-! ### Runs of a decode -/

theorem run_succ {s t : State} (h : step s = .next t) (k : Nat) :
    Host.Core.run Sys2Proof.core (k + 1) s = Host.Core.run Sys2Proof.core k t := by
  have hcore : Sys2Proof.core.step s = .next t := h
  simp only [Host.Core.run, hcore]

/-- A run goes on from where a shorter run has come. -/
theorem run_add {j : Nat} {s t : State} (h : Host.Core.run Sys2Proof.core j s = .next t) (k : Nat) :
    Host.Core.run Sys2Proof.core (j + k) s = Host.Core.run Sys2Proof.core k t := by
  induction j generalizing s with
  | zero =>
    obtain rfl : s = t := Host.Outcome.next.inj h
    rw [Nat.zero_add]
  | succ j ih =>
    obtain ⟨u, hu, -⟩ := cycle_answers s
    rw [run_succ hu] at h
    rw [Nat.add_right_comm, run_succ hu, ih h]

theorem portsNow_of_cons {s : State} {p : Ports} {ps : List Ports} (h : s.inputs = p :: ps) : portsNow s = p := by
  rw [portsNow, h, List.headD_cons]

/-- The edges of a decode in progress take `CNT` down by one each, and change nothing else but the model's bookkeeping, whatever
the host drives short of `rst`. -/
theorem run_countdown {s : State} {during rest : List Ports} {c : Nat} (hin : s.inputs = during ++ rest)
    (hrst : ∀ q ∈ during, q.rst = false) (hb : s.busy = true) (hd : s.done = false) (hc : 1 ≤ c)
    (hcnt : s.cnt = c + during.length) :
    ∃ x, Host.Core.run Sys2Proof.core during.length s = .next { s with cnt := c, inputs := rest, bufRdata := x } := by
  induction during generalizing s with
  | nil =>
    obtain rfl : s.cnt = c := hcnt
    obtain rfl : s.inputs = rest := hin
    exact ⟨_, rfl⟩
  | cons q during ih =>
    obtain ⟨hq, hrst⟩ := List.forall_mem_cons.1 hrst
    rw [List.length_cons] at hcnt ⊢
    have count := countdownEdge s (by rwa [portsNow_of_cons hin]) hb (by omega)
    obtain ⟨x, hx⟩ := ih (s := { s with
      cnt := s.cnt - 1, done := false, inputs := s.inputs.tail, bufRdata := readPort s (portsNow s).bufRaddr })
      (congrArg List.tail hin) hrst hb rfl (by simp only [hcnt]; omega)
    exact ⟨x, (run_succ count _).trans (by rw [hx, hd])⟩

/-- A `DECODE` accepted now, after some of its busy cycles. -/
theorem run_accepted {s : State} {p : Ports} {during rest : List Ports} {c : Nat} (hin : s.inputs = p :: (during ++ rest))
    (hb : s.busy = false) (hr : p.rst = false) (hs : p.start = true) (hrst : ∀ q ∈ during, q.rst = false) (hc : 1 ≤ c)
    (hlat : s.params.decodeLatency = c + during.length) :
    ∃ x, Host.Core.run Sys2Proof.core (during.length + 1) s =
      .next { acceptDecode p.len s with cnt := c, inputs := rest, bufRdata := x } := by
  obtain rfl := portsNow_of_cons hin
  obtain ⟨x, hx⟩ := run_countdown (s := acceptDecode (portsNow s).len (cycled s)) (congrArg List.tail hin) hrst rfl rfl hc
    hlat
  exact ⟨x, (run_succ (decodeAcceptedEdge s ⟨hr, hb, hs⟩) _).trans hx⟩

/-- Settles O15. The first `k - 1` busy cycles are the ports driven up to then. -/
theorem busyShowsNoOutcome : Obligations.BusyShowsNoOutcome := by
  intro s p during rest k hin hlen hb hr hs hrst h1 hk
  have len : (during.take (k - 1)).length = k - 1 := by rw [List.length_take]; omega
  obtain ⟨x, hx⟩ := run_accepted (during := during.take (k - 1)) (rest := during.drop (k - 1) ++ rest)
    (c := s.params.decodeLatency + 1 - k) (by rw [← List.append_assoc, List.take_append_drop, hin]) hb hr hs
    (fun q hq => hrst q (List.mem_of_mem_take hq)) (by omega) (by omega)
  rw [len, Nat.sub_add_cancel h1] at hx
  exact ⟨_, hx, rfl, rfl, rfl, rfl, rfl, rfl, rfl⟩

/-- A `DECODE` accepted now, when its `DECODE_LATENCY` busy cycles are over: the completing edge decodes the registers and the
buffer of the acceptance. -/
theorem run_decode {s : State} {p : Ports} {during rest : List Ports} (hin : s.inputs = p :: (during ++ rest))
    (hlen : during.length = s.params.decodeLatency) (hlat : 1 ≤ s.params.decodeLatency) (hb : s.busy = false)
    (hr : p.rst = false) (hs : p.start = true) (hrst : ∀ q ∈ during, q.rst = false) :
    ∃ x, Host.Core.run Sys2Proof.core (s.params.decodeLatency + 1) s =
      .next (completed { acceptDecode p.len s with cnt := 1, inputs := rest, bufRdata := x }) := by
  obtain rfl | ⟨init, q, rfl⟩ := List.eq_nil_or_concat' during
  · rw [← hlen] at hlat
    contradiction
  obtain ⟨hinit, hq⟩ := List.forall_mem_append.1 hrst
  rw [List.length_append, List.length_singleton] at hlen
  obtain ⟨x, hx⟩ := run_accepted (during := init) (rest := q :: rest) (c := 1) (by simpa using hin) hb hr hs hinit le_rfl
    (by omega)
  have completing : Completing { acceptDecode p.len s with cnt := 1, inputs := q :: rest, bufRdata := x } :=
    ⟨hq q List.mem_cons_self, rfl, rfl⟩
  rw [← hlen]
  exact ⟨_, (run_add hx 1).trans (run_succ (step_completing_eq_completed completing) 0)⟩

/-- Settles O14. -/
theorem decodeCompletesAfterLatency : Obligations.DecodeCompletesAfterLatency := by
  intro s p during rest hin hlen hlat hb hr hs hrst
  obtain ⟨x, hx⟩ := run_decode hin hlen hlat hb hr hs hrst
  have n : (completed { acceptDecode p.len s with cnt := 1, inputs := rest, bufRdata := x }).n.toNat =
      min p.len.toNat s.params.maxLen := by
    rw [completed_n]
    exact effectiveLen_toNat s.params p.len
  refine ⟨_, hx, completed_busy _, completed_cnt _, completed_done _, completed_inputs _, completed_params _,
    completed_buf _, n, fun b agree => ?_⟩
  rw [← n, completed_n] at agree ⊢
  exact completed_outcome agree

end Sys2Proof.Machine

/-! Proofs of the statements of 60_exceptions.md: the two error entries (O29, O30), what an error entry keeps (O32), the reserved
codes (O33), and the invariant of a block that has been reset (O4). -/

namespace Sys2Proof.Machine

open Sys2Proof.Safety

/-! ### The error entries -/

/-- Settles O29. No layout needs fewer than 25 bytes, so the datagram is too short for its own. -/
theorem truncatedEnvelopeEntry : Obligations.TruncatedEnvelopeEntry := by
  intro s hc h20
  have need := twenty_five_le_neededLength s
  rw [step_completing_short hc (by omega), if_pos h20]

/-- Settles O30. Below 24 bytes the datagram is too short for every layout. -/
theorem truncatedHeaderEntry : Obligations.TruncatedHeaderEntry := by
  intro s hc h20 h
  have need := twenty_five_le_neededLength s
  rw [step_completing_short hc (by omega), if_neg (Nat.not_lt.2 h20)]

/-- Settles O32. An outcome that is not valid is that of a datagram below its needed length. -/
theorem errorEntryKeepsNoField : Obligations.ErrorEntryKeepsNoField := by
  intro s t hc hstep hv
  have short : s.n.toNat < neededLength s := Nat.not_le.1 fun fits =>
    Bool.eq_false_iff.1 hv ((successExactlyWhenLongEnough s t hc hstep).1.2 fits)
  obtain rfl := Host.Outcome.next.inj (hstep.symm.trans (step_completing_short hc short))
  exact ⟨ite_eq_or_eq _ _ _, rfl, rfl, rfl, rfl, rfl, rfl, rfl⟩

/-! ### What one edge can do -/

/-- The next states of one edge, each with its condition and what it makes of the state: a reset (70_reset_and_hazards.md R231), a
failed and a successful completion (60_exceptions.md R206, 42_host_control.md R175), the countdown (R176), an accepted `DECODE`
(R170), an accepted `BUF_WRITE` (R172), and an idle edge that takes neither command. -/
inductive EdgeTo (s : State) : State → Prop
  | reset (hr : (portsNow s).rst = true) : EdgeTo s (applyReset (cycled s))
  | failed (hc : Completing s) (short : s.n.toNat < neededLength s) :
      EdgeTo s (afterError (if s.n.toNat < 20 then 1#2 else 2#2) (cycled s))
  | decoded (hc : Completing s) (fits : neededLength s ≤ s.n.toNat) :
      EdgeTo s { statusCompleted (cycled s) with res := decodedResults (unpackSel (selWord s)) s }
  | counted (hr : (portsNow s).rst = false) (hb : s.busy = true) (hc : s.cnt ≠ 1) :
      EdgeTo s (countDown (clearDone (cycled s)))
  | accepted (ha : Accepting s) : EdgeTo s (acceptDecode (portsNow s).len (cycled s))
  | written (hw : WritesBuf s) :
      EdgeTo s (memWrite (portsNow s).bufWaddr.toNat (portsNow s).bufWdata (clearDone (cycled s)))
  | quiet (hr : (portsNow s).rst = false) (hb : s.busy = false) (hs : (portsNow s).start = false) (hw : ¬ WritesBuf s) :
      EdgeTo s (clearDone (cycled s))

/-- Every step is one of these edges, by the branches of `Step(state, in)`. -/
theorem edgeTo_of_step {s t : State} (hstep : step s = .next t) : EdgeTo s t := by
  have edges : t = edge s (portsNow s) := Host.Outcome.next.inj (hstep.symm.trans (stepIsNextStateFunction s))
  rw [edge_portsNow] at edges
  split_ifs at edges with hr hb hc hs hw
  · exact edges ▸ .reset hr
  · have completing : Completing s := ⟨Bool.eq_false_iff.2 hr, hb, hc⟩
    obtain short | fits := Nat.lt_or_ge s.n.toNat (neededLength s)
    · exact Host.Outcome.next.inj ((step_completing_short completing short).symm.trans hstep) ▸ .failed completing short
    · exact Host.Outcome.next.inj ((step_completing_fits completing fits).symm.trans hstep) ▸ .decoded completing fits
  · exact edges ▸ .counted (Bool.eq_false_iff.2 hr) hb hc
  · exact edges ▸ .accepted ⟨Bool.eq_false_iff.2 hr, Bool.eq_false_iff.2 hb, hs⟩
  · obtain ⟨hwe, ha⟩ := hw
    exact edges ▸ .written ⟨Bool.eq_false_iff.2 hr, Bool.eq_false_iff.2 hb, Bool.eq_false_iff.2 hs, hwe, ha⟩
  · exact edges ▸ .quiet (Bool.eq_false_iff.2 hr) (Bool.eq_false_iff.2 hb) (Bool.eq_false_iff.2 hs)
      fun ⟨_, _, _, hwe, ha⟩ => hw ⟨hwe, ha⟩

/-! ### The reserved codes -/

/-- The codes of the two error entries (60_exceptions.md R201, R202). -/
theorem shortCode_ne_three (n : Nat) : (if n < 20 then 1#2 else 2#2 : BitVec 2) ≠ 3#2 := by
  split <;> decide

/-- The codes of `ADDR_VARIANT` end at 4 (10_state.md R22). -/
theorem variantCode_le_four (v : Variant) : (variantCode v).toNat ≤ 4 := by
  cases v <;> decide

/-- Settles O33. Only a failed decode writes a code other than 0 into `ERR`, and only a successful one into `ADDR_VARIANT`. -/
theorem reservedCodesNeverWritten : Obligations.ReservedCodesNeverWritten := by
  intro s t hstep
  have noError : 0#2 ≠ 3#2 := by decide
  have noVariant : ¬ 4 < Results.zero.addrVariant.toNat := by decide
  cases edgeTo_of_step hstep with
  | reset | accepted => exact ⟨fun h => absurd h noError, fun h => absurd h noVariant⟩
  | failed => exact ⟨fun h => absurd h (shortCode_ne_three _), fun h => absurd h noVariant⟩
  | decoded => exact ⟨fun h => absurd h noError, fun h => absurd h (Nat.not_lt.2 (variantCode_le_four _))⟩
  | counted | written | quiet => exact ⟨id, fun _ => rfl⟩

/-! ### The invariant -/

/-- The shape is one of the parameters, `N` and the result registers. -/
theorem packetShape_congr {s t : State} (hp : t.params = s.params) (hn : t.n = s.n) (hr : t.res = s.res)
    (h : PacketShape s) : PacketShape t := by
  constructor <;> rw [hr]
  · exact h.variant
  · exact h.domainLen
  · rw [hp]
    exact h.domainOff
  · exact h.payloadOff
  · rw [hn]
    exact h.payloadEnd

/-- The results of a datagram that is long enough have their shape. -/
theorem packetShape_decodedResults {s t : State} {f : SelFields} (hp : t.params = s.params) (hn : t.n = s.n)
    (hr : t.res = decodedResults f s) (fits : 20 + headerNeed s.params (variantOf f) f.domainLengthCode ≤ s.n.toNat) :
    PacketShape t := by
  constructor <;> rw [hr]
  · exact variantCode_variantOf f
  · rw [decodedResults_domainLen_toNat, domainBytes_eq_dlen]
    rfl
  · rw [decodedResults_domainOff_toNat, domainOffset_eq_layoutEnds, hp]
    rfl
  · rw [decodedResults_payloadOff_toNat fits, decodedResults_domainOff_toNat, decodedResults_domainLen_toNat]
  · rw [decodedResults_payload_end fits, hn]

/-- A reset and an error entry leave the block idle without a packet, with `N` within `MAX_LEN`. -/
theorem inv_without_packet {s : State} {n : Half} {done : Bool} {err : BitVec 2} (hi : Inv s)
    (hn : n.toNat ≤ s.params.maxLen) (he : err ≠ 3#2) :
    Inv { cycled s with
      busy := false, cnt := 0, n := n, valid := false, done := done, err := err, res := Results.zero } where
  paramsLegal := hi.paramsLegal
  bufWf := hi.bufWf
  bufBounded := hi.bufBounded
  lenBounded := hn
  idleCnt _ := rfl
  busyCnt h := by simp at h
  busyClear h := by simp at h
  clearUnlessValid _ := rfl
  validNoErr h := by simp at h
  errLegal := he
  variantLegal := Nat.zero_le 4
  packet h := by simp at h

/-- The completion of a datagram that is long enough. -/
theorem inv_decoded {s : State} {f : SelFields} (hi : Inv s)
    (fits : 20 + headerNeed s.params (variantOf f) f.domainLengthCode ≤ s.n.toNat) :
    Inv { statusCompleted (cycled s) with res := decodedResults f s } where
  paramsLegal := hi.paramsLegal
  bufWf := hi.bufWf
  bufBounded := hi.bufBounded
  lenBounded := hi.lenBounded
  idleCnt _ := rfl
  busyCnt h := by simp at h
  busyClear h := by simp at h
  clearUnlessValid h := by simp at h
  validNoErr _ := rfl
  errLegal := by simp
  variantLegal := variantCode_le_four _
  packet _ := packetShape_decodedResults (s := s) rfl rfl rfl fits

/-- An accepted `DECODE`: the countdown starts at a legal latency and every result falls. -/
theorem inv_accepted {s : State} (hi : Inv s) (len : Half) : Inv (acceptDecode len (cycled s)) where
  paramsLegal := hi.paramsLegal
  bufWf := hi.bufWf
  bufBounded := hi.bufBounded
  lenBounded := (effectiveLen_toNat s.params len).trans_le (min_le_right _ _)
  idleCnt h := by simp at h
  busyCnt _ := by
    obtain ⟨-, -, latency⟩ := hi.paramsLegal
    exact ⟨latency, le_rfl⟩
  busyClear _ := ⟨rfl, rfl, rfl⟩
  clearUnlessValid _ := rfl
  validNoErr _ := rfl
  errLegal := by simp
  variantLegal := Nat.zero_le 4
  packet h := by simp at h

/-- An edge between decodes moves `CNT` within its range and `BUF` within its bounds, and keeps the outcome. -/
theorem inv_between {s : State} {cnt : Nat} {buf : Memory} (hi : Inv s) (idle : s.busy = false → cnt = 0)
    (busy : s.busy = true → 1 ≤ cnt ∧ cnt ≤ s.params.decodeLatency) (wf : Memory.wf buf = true)
    (bounded : ∀ c ∈ buf, c.1 < s.params.maxLen) : Inv { clearDone (cycled s) with cnt := cnt, buf := buf } where
  paramsLegal := hi.paramsLegal
  bufWf := wf
  bufBounded := bounded
  lenBounded := hi.lenBounded
  idleCnt := idle
  busyCnt := busy
  busyClear h :=
    have ⟨valid, _, err⟩ := hi.busyClear h
    ⟨valid, rfl, err⟩
  clearUnlessValid := hi.clearUnlessValid
  validNoErr := hi.validNoErr
  errLegal := hi.errLegal
  variantLegal := hi.variantLegal
  packet h := packetShape_congr (s := s) rfl rfl rfl (hi.packet h)

/-- A busy edge that does not complete leaves `CNT` between 1 and `DECODE_LATENCY` (42_host_control.md R176). -/
theorem inv_counted {s : State} (hi : Inv s) (hb : s.busy = true) (hc : s.cnt ≠ 1) :
    Inv (countDown (clearDone (cycled s))) := by
  obtain ⟨one, latency⟩ := hi.busyCnt hb
  have less : cntLessOne (cntWidth s.params.decodeLatency) s.cnt = s.cnt - 1 := if_neg (by omega)
  refine inv_between (s := s) hi (fun h => by simp [hb] at h) (fun _ => ?_) hi.bufWf hi.bufBounded
  simp only [clearDone_params, clearDone_cnt, cycled]
  omega

/-- Settles O4. One case for each edge. -/
theorem invariantKeptByEveryStep : Obligations.InvariantKeptByEveryStep := by
  intro s t hi hstep
  cases edgeTo_of_step hstep with
  | reset => exact inv_without_packet hi (Nat.zero_le _) (by decide)
  | failed => exact inv_without_packet hi hi.lenBounded (shortCode_ne_three _)
  | decoded _ fits => exact inv_decoded hi (by rwa [← neededLength_eq])
  | counted _ hb hc => exact inv_counted hi hb hc
  | accepted => exact inv_accepted hi _
  | written hw =>
    obtain ⟨_, _, _, _, ha⟩ := hw
    exact inv_between hi hi.idleCnt hi.busyCnt (memStore_wf _ _ _ hi.bufWf) (memStore_bounded _ _ _ ha hi.bufBounded)
  | quiet => exact inv_between hi hi.idleCnt hi.busyCnt hi.bufWf hi.bufBounded

end Sys2Proof.Machine

/-! Proofs of the statements of 70_reset_and_hazards.md: reset (O1), and that the outcome of a decode depends neither on
`DECODE_LATENCY` nor on what is driven while busy (O16). -/

namespace Sys2Proof.Machine

open Sys2Proof.Safety

/-- Settles O1. -/
theorem resetOverridesEverything : Obligations.ResetOverridesEverything :=
  fun _ hr => step_reset hr

/-- `AF3_SOURCE_COMPAT` is the one parameter `Decode()` reads. -/
theorem decodePacket_params_congr {p q : Params} (h : q.af3SourceCompat = p.af3SourceCompat) (n : Nat) (b : Nat → Byte) :
    decodePacket q n b = decodePacket p n b := by
  simp only [decodePacket, h]

/-- The outputs after a completing edge come from `AF3_SOURCE_COMPAT`, `N` and `BUF` alone, but for the read port, which reads
`MAX_LEN` too. -/
theorem outputs_completed_congr {s t : State} (hp : t.params.af3SourceCompat = s.params.af3SourceCompat) (hn : t.n = s.n)
    (hbuf : t.buf = s.buf) (raddr : Half) :
    outputs (completed t) raddr = { outputs (completed s) raddr with bufRdata := readPort (completed t) raddr } := by
  have bytes : bufByte t = bufByte s := by
    funext a
    rw [bufByte, bufByte, hbuf]
  have decoded : decodePacket t.params t.n.toNat (bufByte t) = decodePacket s.params s.n.toNat (bufByte s) := by
    rw [decodePacket_params_congr hp, hn, bytes]
  simp only [completed, decoded]
  cases decodePacket s.params s.n.toNat (bufByte s) with
  | ok | error => rfl

/-- Settles O16. Both runs end in the completing edge of the same `N` and `BUF`, those of the acceptance. -/
theorem outcomeIndependentOfLatency : Obligations.OutcomeIndependentOfLatency := by
  intro s s' p during during' rest rest' same hmax hcompat hin hin' hlen hlen' hlat hlat' hb hr hs hrst hrst'
  have hb' : s'.busy = false := by rw [same, hb]
  obtain ⟨x, hx⟩ := run_decode hin hlen hlat hb hr hs hrst
  obtain ⟨x', hx'⟩ := run_decode hin' hlen' hlat' hb' hr hs hrst'
  have n : effectiveLen s'.params p.len = effectiveLen s.params p.len := by rw [effectiveLen, effectiveLen, hmax]
  have buf : s'.buf = s.buf := by rw [same]
  exact ⟨_, _, hx, hx', outputs_completed_congr hcompat n buf⟩

end Sys2Proof.Machine

/-! Proofs of the two remaining statements: the invariant holds of `State.reset` (O3), and, from 41_lon_header.md, the header
fields of a successful decode are the named bits of the flags byte, the format byte and the source address (O43). -/

namespace Sys2Proof.Machine

open Sys2Proof.Safety

/-! ### The header fields -/

/-- The selector fields of a state, as the slices of `H[1]` and `H[3]` that 41_lon_header.md R124 to R130 name. -/
theorem unpackSel_selWord (s : State) :
    unpackSel (selWord s) =
      { version := (bufByte s 21).extractLsb 7 6
        pduFormat := (bufByte s 21).extractLsb 5 4
        addressFormat := (bufByte s 21).extractLsb 3 2
        domainLengthCode := (bufByte s 21).extractLsb 1 0
        modeFlag := (bufByte s 23).getLsbD 7
        srcNode := (bufByte s 23).extractLsb 6 0 } :=
  unpackSel_append (bufByte s 21) (bufByte s 23)

/-- Settles O43. `HDR_PRIORITY`, `HDR_ALTPATH`, `HDR_BACKLOG` and `SRC_SUBNET` come from their own byte of the header, the other
registers from the selector word, which is `H[1] ++ H[3]`. -/
theorem headerFieldsReported : Obligations.HeaderFieldsReported := by
  intro s t hc hstep hv
  obtain ⟨-, rfl⟩ := step_completing_of_valid hc hstep hv
  rw [unpackSel_selWord]
  exact ⟨rfl, rfl, rfl, rfl, rfl, rfl, rfl, rfl, rfl, rfl⟩

/-! ### The invariant at reset -/

/-- The parameters after reset are legal (00_scope.md R5), whatever the free latency is. -/
theorem configParams_legal : Config.params.legal :=
  ⟨by decide, by decide, Nat.succ_pos Config.decodeLatencyLessOne⟩

/-- Settles O3. After reset the block is idle without a packet, and no byte of `BUF` has been written. -/
theorem invariantAtReset : Obligations.InvariantAtReset where
  paramsLegal := configParams_legal
  bufWf := rfl
  bufBounded := List.forall_mem_nil _
  lenBounded := Nat.zero_le _
  idleCnt _ := rfl
  busyCnt busy := absurd busy Bool.false_ne_true
  busyClear busy := absurd busy Bool.false_ne_true
  clearUnlessValid _ := rfl
  validNoErr _ := rfl
  errLegal := by decide
  variantLegal := Nat.zero_le 4
  packet valid := absurd valid Bool.false_ne_true

end Sys2Proof.Machine
